-- ==== Sys2Proof/Word.lean ====
section
/-! DEFINITION. The words of the part: bytes of the link and values of the tick count.

Multi-byte order and field encodings stand in Machine/Operands.lean, modular time in Machine/Flags.lean. -/

namespace Sys2Proof

/-- One byte of the serial link. -/
abbrev Byte := BitVec 8

/-- A value of the tick count, or a distance between two values: 32 bits, wrapping (R1, R7). -/
abbrev Tick := BitVec 32

/-- A set of sixteen members, one bit for each line or channel (R180). -/
abbrev Levels := BitVec 16

/-- The number of an output line, OUT0 to OUT15. -/
abbrev LineIx := Fin 16

/-- The number of an input channel, IN0 to IN15. -/
abbrev ChanIx := Fin 16

/-- The index of an entry of the Entry Table (R16). -/
abbrev EntryIx := Fin 64

end Sys2Proof
end

