-- ==== Sys2Proof/Config.lean ====
section
/-! DEFINITION. What is fixed in the part: capacities, fixed times, the horizon, the identity that HELLO reports. -/

namespace Sys2Proof

/-- The four link rates the RATE pins select (Table 9-1), named by their nominal rate. -/
inductive LinkRate
  | baud115200
  | baud460800
  | baud921600
  | baud2000000
  deriving DecidableEq, Repr

namespace Config

/-- Record places of the Capture Journal (R107). -/
def recordPlaces : Nat := 256
/-- Places of the Report Queue (R128). -/
def reportPlaces : Nat := 32
/-- Reports that may be sent while unacknowledged (R135). -/
def reportWindow : Nat := 8
/-- Frames of the request queue (R158). -/
def requestPlaces : Nat := 4
/-- Answers of the answer cache (R165). -/
def cachePlaces : Nat := 4
/-- Records one batch carries at most (R119). -/
def batchLimit : Nat := 48
/-- Where counters stop (conventions of 00_scope.md, "Counts"). -/
def counterLimit : Nat := 65535
/-- Entries one ENTRY-LIST answer lists at most (R37). -/
def listLimit : Nat := 16

/-- The horizon, 2^31 - 1 ticks (R6). -/
def horizon : Nat := 2147483647

/-- Base-clock periods of one step of the millisecond clock (R8). -/
def periodsPerMs : Nat := 24000
/-- Base-clock periods of one microsecond (R91). -/
def periodsPerUs : Nat := 24
/-- Base-clock periods a STOP level must hold (R76). -/
def stopFilterPeriods : Nat := 240
/-- Base-clock periods a RESTART reset holds (R177). -/
def restartHoldPeriods : Nat := 24000
/-- The gap timer in milliseconds (R155). -/
def gapMs : Nat := 2

/-- The family code of the ILBREN family (R183). -/
def familyCode : Nat := 0x1610
/-- The revision in the parts the manual describes (R183). -/
def revision : Nat := 1

/-- The start byte of every frame (Table 11-1). -/
def startByte : Byte := 0xC3
/-- The least and the greatest length field (R152). -/
def minLength : Nat := 2
/-- The greatest length field (R152). -/
def maxLength : Nat := 514
/-- The largest body (Table 11-1). -/
def maxBody : Nat := 512

end Config

/-- Base-clock periods of one bit (Table 9-1). -/
def LinkRate.bitPeriod : LinkRate → Nat
  | .baud115200 => 208
  | .baud460800 => 52
  | .baud921600 => 26
  | .baud2000000 => 12

/-- The nominal rate in baud (Table 9-1, R172). -/
def LinkRate.baud : LinkRate → Nat
  | .baud115200 => 115200
  | .baud460800 => 460800
  | .baud921600 => 921600
  | .baud2000000 => 2000000

/-- The rate that the pins RATE1 and RATE0 select (Table 9-1). -/
def LinkRate.ofPins (rate1 rate0 : Bool) : LinkRate :=
  match rate1, rate0 with
  | false, false => .baud115200
  | false, true => .baud460800
  | true, false => .baud921600
  | true, true => .baud2000000

end Sys2Proof
end

