-- ==== Sys2Proof/Syntax.lean ====
section
/-! DEFINITION. The commands of the part: one constructor for each row of spec/opcode_table.json.

A request row carries what its frame carries beside the kind (R158): the sequence number the host chose and the body as
it stands on the link. UNKNOWN and ANSWER_CACHE_RESEND are rows of frames of any kind and carry the kind as well. The
event rows carry the pin or channel they happen at. -/

namespace Sys2Proof

/-- A command: one whole step of the part (spec/95_what_each_step_holds.md). -/
inductive Instr
  -- requests (Table 11-3)
  | hello (seq : Byte) (body : List Byte)
  | status (seq : Byte) (body : List Byte)
  | restart (seq : Byte) (body : List Byte)
  | unknown (kind seq : Byte) (body : List Byte)
  | answerCacheResend (kind seq : Byte) (body : List Byte)
  | ack (seq : Byte) (body : List Byte)
  | reportsOn (seq : Byte) (body : List Byte)
  | linkSetup (seq : Byte) (body : List Byte)
  | linkReset (seq : Byte) (body : List Byte)
  | timeSetup (seq : Byte) (body : List Byte)
  | timeSet (seq : Byte) (body : List Byte)
  | timeRun (seq : Byte) (body : List Byte)
  | timeStop (seq : Byte) (body : List Byte)
  | timeRead (seq : Byte) (body : List Byte)
  | place (seq : Byte) (body : List Byte)
  | entryQuery (seq : Byte) (body : List Byte)
  | entryList (seq : Byte) (body : List Byte)
  | cancel (seq : Byte) (body : List Byte)
  | timelineClear (seq : Byte) (body : List Byte)
  | lineSetup (seq : Byte) (body : List Byte)
  | lineWrite (seq : Byte) (body : List Byte)
  | linesRead (seq : Byte) (body : List Byte)
  | halt (seq : Byte) (body : List Byte)
  | resume (seq : Byte) (body : List Byte)
  | stopSetup (seq : Byte) (body : List Byte)
  | channelSetup (seq : Byte) (body : List Byte)
  | channelQuery (seq : Byte) (body : List Byte)
  | flush (seq : Byte) (body : List Byte)
  -- events of the timebase
  | internalTick
  | cntRisingEdge
  -- events of an input channel
  | rawTransition (channel : ChanIx)
  | glitch (channel : ChanIx)
  | edgeAccepted (channel : ChanIx)
  -- events of the STOP line
  | stopWindowOpen
  | stopGlitch
  | stopLevelAccepted
  -- timers and the arbiter
  | lingerExpiry (channel : ChanIx)
  | reportTimerExpiry
  | admission
  -- events of the link
  | rxCharacter (value : Byte) (stopBit : Bool)
  | gapAbort
  | txFrameEnd
  -- device reset
  | powerOn
  | resetPin
  | resetEnd (rate1 rate0 : Bool) (stop : Bool) (inputs : Levels)
  deriving DecidableEq, Repr

/-- The 26 requests that have a kind code (Table 11-3). -/
inductive RequestKind
  | hello | status | restart
  | ack | reportsOn | linkSetup | linkReset
  | timeSetup | timeSet | timeRun | timeStop | timeRead
  | place | entryQuery | entryList | cancel | timelineClear
  | lineSetup | lineWrite | linesRead
  | halt | resume | stopSetup
  | channelSetup | channelQuery | flush
  deriving DecidableEq, Repr

end Sys2Proof
end

