-- ==== Sys2Proof/Decode.lean ====
section
/-! DEFINITION. The kind codes of the request frames, and `decodeTableWord`.

spec/opcode_table.json gives bits to no row, so no word spells a command. What the spec does encode is the kind byte of
a request frame (Table 11-3); it is read and formed here. The receiver that reads a whole frame stands in
Machine/Link.lean, the bodies in Machine/Operands.lean. -/

namespace Sys2Proof

/-- The kind code of each request (Table 11-3). -/
def RequestKind.code : RequestKind → Byte
  | .hello => 0x01
  | .status => 0x02
  | .restart => 0x03
  | .ack => 0x08
  | .reportsOn => 0x09
  | .linkSetup => 0x0A
  | .linkReset => 0x0B
  | .timeSetup => 0x10
  | .timeSet => 0x11
  | .timeRun => 0x12
  | .timeStop => 0x13
  | .timeRead => 0x14
  | .place => 0x18
  | .entryQuery => 0x19
  | .entryList => 0x1A
  | .cancel => 0x1B
  | .timelineClear => 0x1C
  | .lineSetup => 0x20
  | .lineWrite => 0x21
  | .linesRead => 0x22
  | .halt => 0x24
  | .resume => 0x25
  | .stopSetup => 0x26
  | .channelSetup => 0x28
  | .channelQuery => 0x29
  | .flush => 0x2A

/-- Every request, in the order of Table 11-3. -/
def RequestKind.all : List RequestKind :=
  [.hello, .status, .restart, .ack, .reportsOn, .linkSetup, .linkReset, .timeSetup, .timeSet, .timeRun, .timeStop,
    .timeRead, .place, .entryQuery, .entryList, .cancel, .timelineClear, .lineSetup, .lineWrite, .linesRead, .halt,
    .resume, .stopSetup, .channelSetup, .channelQuery, .flush]

/-- The request a kind byte names; none for a code that Table 11-3 does not give (R168). -/
def RequestKind.ofByte (k : Byte) : Option RequestKind :=
  RequestKind.all.find? (fun r => r.code == k)

/-- The kinds that are request kinds, defined or not: 0x01 to 0x2F (R156). -/
def isRequestKind (k : Byte) : Bool :=
  decide (1 ≤ k.toNat) && decide (k.toNat ≤ 0x2F)

/-- The command that the taking of a frame of a defined kind is. -/
def RequestKind.command : RequestKind → Byte → List Byte → Instr
  | .hello => .hello
  | .status => .status
  | .restart => .restart
  | .ack => .ack
  | .reportsOn => .reportsOn
  | .linkSetup => .linkSetup
  | .linkReset => .linkReset
  | .timeSetup => .timeSetup
  | .timeSet => .timeSet
  | .timeRun => .timeRun
  | .timeStop => .timeStop
  | .timeRead => .timeRead
  | .place => .place
  | .entryQuery => .entryQuery
  | .entryList => .entryList
  | .cancel => .cancel
  | .timelineClear => .timelineClear
  | .lineSetup => .lineSetup
  | .lineWrite => .lineWrite
  | .linesRead => .linesRead
  | .halt => .halt
  | .resume => .resume
  | .stopSetup => .stopSetup
  | .channelSetup => .channelSetup
  | .channelQuery => .channelQuery
  | .flush => .flush

/-- The command that the taking of a request frame is: the request its kind names, or UNKNOWN (R168). -/
def commandOfFrame (kind seq : Byte) (body : List Byte) : Instr :=
  match RequestKind.ofByte kind with
  | some r => r.command seq body
  | none => .unknown kind seq body

/-- The command a word of the opcode table spells. The table gives bits to no row, so there is none. -/
def decodeTableWord (_nbits _w : Nat) : Option Instr := none

end Sys2Proof
end

