-- ==== Sys2Proof/Machine/State.lean ====
section
/-! DEFINITION. The state of the part: every item the spec gives its eight blocks, as plain data, and its reset values.

What the spec derives from other items is not stored twice: the halt state (R75), the driven levels (R64), the held
counts, the unreported counts and the free places (R107, R110) are functions of State (Machine/Flags.lean). -/

namespace Sys2Proof.Machine

/-! ### Timebase (chapter 1) -/

/-- The two states of the timebase (R2). -/
inductive TimebaseState
  | stopped
  | running
  deriving DecidableEq, Repr

/-- The source of the ticks (R3, R4). -/
inductive Source
  | internal
  | external
  deriving DecidableEq, Repr

/-- The items the Timebase holds (R1 to R4), with the CNT pin and the prior sample of its edge detection. -/
structure Timebase where
  count : Tick
  state : TimebaseState
  source : Source
  divider : Nat
  /-- Base-clock periods counted toward the next internal tick (R3). -/
  prescale : Nat
  /-- The prior sample of CNT; none when there is no prior sample (R15). -/
  cntSample : Option Bool
  /-- The level of the CNT pin. -/
  cntRaw : Bool
  /-- Base-clock periods since the millisecond clock last stepped (R8). -/
  msPhase : Nat
  deriving DecidableEq, Repr

/-! ### Timeline (chapters 2 and 3) -/

/-- A number or UNLIMITED: remaining and arms left (Table 2-1). -/
inductive Quantity
  | number (n : Nat)
  | unlimited
  deriving DecidableEq, Repr

/-- What an occurrence does to its line (R17). -/
inductive Action
  | setLine
  | clearLine
  | toggleLine
  | pulseHigh (width : Tick)
  | pulseLow (width : Tick)
  deriving DecidableEq, Repr

/-- Which directions a trigger matches (R47). -/
inductive TriggerSense
  | rise
  | fall
  | any
  deriving DecidableEq, Repr

/-- What becomes of an AT start that is already reached (R30). -/
inductive LatePolicy
  | fire
  | refuse
  deriving DecidableEq, Repr

/-- The start forms with their own fields (R18). -/
inductive Start
  | atTime (time : Tick) (late : LatePolicy)
  | afterDelay (delay : Tick)
  | onTrigger (channel : ChanIx) (sense : TriggerSense) (delay : Tick) (arms : Nat)
  deriving DecidableEq, Repr

/-- The period of a repeating entry and its count, 0 for no limit (R19). -/
structure Repeat where
  period : Tick
  count : Nat
  deriving DecidableEq, Repr

/-- The fields of an entry that PLACE fixes: the first group of Table 2-1. -/
structure Plan where
  tag : BitVec 16
  line : LineIx
  action : Action
  start : Start
  rep : Option Repeat
  /-- EACH is in the notify set (R20). -/
  each : Bool
  /-- END is in the notify set (R20). -/
  final : Bool
  deriving DecidableEq, Repr

/-- How far an entry has come: its state with the progress fields that state has (R21, R22). -/
inductive Progress
  | waiting
  | pending (due : Tick) (remaining : Quantity)
  | trailing (due lead : Tick) (remaining : Quantity) (cancelled : Bool)
  | retired
  deriving DecidableEq, Repr

/-- How a life ended (R44, R45, R59). -/
inductive FinalOutcome
  | done
  | cancelled
  | missed
  deriving DecidableEq, Repr

/-- The contents of an entry notice (Table 3-1); index and tag are the entry's own. -/
structure EntryNotice where
  fired : Bool
  late : Bool
  missed : Bool
  overrun : Bool
  firedCount : Nat
  missedCount : Nat
  overrunCount : Nat
  lastTick : Tick
  outcome : Option FinalOutcome
  remaining : Option Quantity
  deriving DecidableEq, Repr

/-- The three conditions of an entry notice slot (R52). -/
inductive EntrySlot
  | empty
  | collecting (n : EntryNotice)
  | pending (n : EntryNotice)
  deriving DecidableEq, Repr

/-- The record of an entry that is not FREE (Table 2-1). -/
structure Entry where
  plan : Plan
  progress : Progress
  /-- Present when the entry was started ON (R21). -/
  armsLeft : Option Quantity
  slot : EntrySlot
  deriving DecidableEq, Repr

/-! ### Output Stage (chapter 4) -/

/-- Who drives a line (R63). -/
inductive LineMode
  | direct
  | timed
  deriving DecidableEq, Repr

/-- What the Output Stage holds for one line (Table 4-1); the driven level is formed from it (R64). -/
structure OutLine where
  mode : LineMode
  safe : Bool
  direct : Bool
  timed : Bool
  deriving DecidableEq, Repr

/-! ### Halt Unit (chapter 5) -/

/-- A set of halt causes (R75). -/
structure Causes where
  request : Bool
  stopLine : Bool
  silence : Bool
  deriving DecidableEq, Repr

/-- What the Halt Unit holds. -/
structure HaltUnit where
  causes : Causes
  stopEnable : Bool
  stopActive : Bool
  stopFiltered : Bool
  /-- Closed, or open with the base-clock periods it has stayed open (R76). -/
  stopWindow : Option Nat
  /-- The level of the STOP pin. -/
  stopRaw : Bool
  /-- The halt slot: empty, or pending with the causes added (R87). -/
  slot : Option Causes
  deriving DecidableEq, Repr

/-! ### Input Channels and their lists of the Capture Journal (chapters 6 and 7) -/

/-- The channel modes (R95). -/
inductive ChannelMode
  | off
  | capture
  | watch
  deriving DecidableEq, Repr

/-- The capture senses (R96). -/
inductive CaptureSense
  | rise
  | fall
  | both
  deriving DecidableEq, Repr

/-- The direction of an accepted edge (R93). -/
inductive Edge
  | rise
  | fall
  deriving DecidableEq, Repr

/-- A channel's setup: what CHANNEL-SETUP stores (R102). -/
structure ChannelSetup where
  mode : ChannelMode
  sense : CaptureSense
  /-- The filter in microseconds. -/
  filter : Nat
  interval : Bool
  threshold : Nat
  quota : Nat
  /-- The linger in milliseconds; 0 is off (R116). -/
  linger : Nat
  deriving DecidableEq, Repr

/-- An open filter window: its stamp and the base-clock periods it has stayed open (R91). -/
structure Window where
  stamp : Tick
  elapsed : Nat
  deriving DecidableEq, Repr

/-- What a pending level notice has gathered (R98). -/
structure LevelNotice where
  changes : Nat
  first : Tick
  last : Tick
  deriving DecidableEq, Repr

/-- A capture record (Table 7-2); its channel is that of the list or batch it stands in. -/
structure Record where
  edge : Edge
  stamp : Tick
  interval : Option Tick
  afterLoss : Bool
  deriving DecidableEq, Repr

/-- What an Input Channel holds (Table 6-1) with the journal's items for it (Table 7-1). -/
structure Channel where
  setup : ChannelSetup
  /-- The level of the pin INn. -/
  raw : Bool
  filtered : Bool
  window : Option Window
  reference : Option Tick
  glitches : Nat
  level : Option LevelNotice
  /-- The unreported list, oldest first (R109). -/
  unreported : List Record
  lost : Nat
  lossMark : Bool
  flushFlag : Bool
  /-- Stopped, or running with the steps of the millisecond clock left to its expiry (R8, R116). -/
  lingerTimer : Option Nat
  lingerDue : Bool
  deriving DecidableEq, Repr

/-! ### Report Queue (chapter 8) -/

/-- What brought a device reset about (R134). -/
inductive ResetCause
  | power
  | pin
  | restart
  deriving DecidableEq, Repr

/-- The kinds of report with their content, fixed at admission (Table 8-1, R130). -/
inductive ReportContent
  | start (cause : ResetCause) (rate : LinkRate)
  | batch (channel : ChanIx) (lost : Nat) (records : List Record)
  | entry (index : EntryIx) (tag : BitVec 16) (notice : EntryNotice)
  | level (channel : ChanIx) (levelNow : Bool) (notice : LevelNotice)
  | halt (halted : Bool) (causes added : Causes) (stopLevel : Bool)
  deriving DecidableEq, Repr

/-- A report in the queue (R128). -/
structure Report where
  seq : Byte
  content : ReportContent
  sent : Bool
  resend : Bool
  /-- Its frame is on the line (R137). -/
  onLine : Bool
  deriving DecidableEq, Repr

/-- Whether reports flow (R139). -/
inductive ReportState
  | flowing
  | silent
  deriving DecidableEq, Repr

/-- The two classes the arbiter alternates between (R133). -/
inductive ReportClass
  | notice
  | batch
  deriving DecidableEq, Repr

/-- What the Report Queue holds. -/
structure ReportQueue where
  /-- In order of admission, the oldest first. -/
  reports : List Report
  nextSeq : Byte
  /-- Stopped, or running with the steps of the millisecond clock left (R137). -/
  timer : Option Nat
  retries : Nat
  state : ReportState
  timeout : Nat
  retryLimit : Nat
  haltOnSilence : Bool
  lastClass : ReportClass
  lastEntry : EntryIx
  lastLevel : ChanIx
  lastBatch : ChanIx
  deriving DecidableEq, Repr

/-! ### Link Controller (chapters 9 and 10) -/

/-- A good request frame (R158). -/
structure Frame where
  kind : Byte
  seq : Byte
  body : List Byte
  deriving DecidableEq, Repr

/-- The answer status codes (Table 0-2). -/
inductive Status
  | ok
  | unknown
  | format
  | value
  | state
  | room
  | none
  | late
  | line
  | halted
  deriving DecidableEq, Repr

/-- The states of an entry, FREE among them (R22). -/
inductive EntryState
  | free
  | waiting
  | pending
  | trailing
  | retired
  deriving DecidableEq, Repr

/-- One row of an ENTRY-LIST answer (R37). -/
structure ListedEntry where
  index : EntryIx
  state : EntryState
  tag : BitVec 16
  line : LineIx
  due : Option Tick
  deriving DecidableEq, Repr

/-- The fields of a STATUS answer (Table 10-4). -/
structure StatusView where
  count : Tick
  timebase : TimebaseState
  source : Source
  halted : Bool
  causes : Causes
  stopEnable : Bool
  stopFiltered : Bool
  free : Nat
  waiting : Nat
  pending : Nat
  trailing : Nat
  retired : Nat
  freePlaces : Nat
  reportState : ReportState
  reportsQueued : Nat
  reportsSent : Nat
  retries : Nat
  nextSeq : Byte
  framing : Nat
  gapAborts : Nat
  crcErrors : Nat
  overruns : Nat
  requestsQueued : Nat
  deriving DecidableEq, Repr

/-- The fields of a LINES-READ answer (R73). -/
structure LinesView where
  rawInputs : Levels
  filteredInputs : Levels
  driven : Levels
  modes : Levels
  safe : Levels
  direct : Levels
  timed : Levels
  halted : Bool
  deriving DecidableEq, Repr

/-- The fields of a CHANNEL-QUERY answer (R105). -/
structure ChannelView where
  setup : ChannelSetup
  raw : Bool
  filtered : Bool
  windowStamp : Option Tick
  referencePresent : Bool
  glitches : Nat
  level : Option LevelNotice
  held : Nat
  unreported : Nat
  lost : Nat
  flushFlag : Bool
  deriving DecidableEq, Repr

/-- The fields an answer carries after its status (R183). -/
inductive AnswerFields
  | none
  | hello (rate : LinkRate)
  | status (v : StatusView)
  | count (n : Nat)
  | reportsOn (state : ReportState) (queued : Nat)
  | linkSetup (timeout retryLimit : Nat) (haltOnSilence : Bool)
  | linkReset (notices batches records : Nat)
  | tick (count : Tick)
  | timeRead (count : Tick) (state : TimebaseState) (source : Source) (divider : Nat)
  | place (index : EntryIx) (state : EntryState) (due : Option Tick) (remaining : Option Quantity) (late : Bool)
      (missed : Nat)
  | entryQuery (index : EntryIx) (entry : Entry)
  | entryList (listed : List ListedEntry) (continuation : Option EntryIx)
  | cancel (atOnce deferred : Nat)
  | lineSetup (mode : LineMode) (safe driven : Bool)
  | lineWrite (driven : Levels)
  | linesRead (v : LinesView)
  | halt (halted : Bool) (causes : Causes)
  | resume (halted : Bool) (causes : Causes) (stopFiltered : Bool)
  | stopSetup (enable active filtered halted : Bool) (causes : Causes)
  | channelSetup (setup : ChannelSetup) (filtered abandoned : Bool)
  | channelQuery (v : ChannelView)
  | flush (channels records : Nat)
  deriving DecidableEq, Repr

/-- An answer: the answer kind, the number of the request it answers, its status and its fields (R165). -/
structure Answer where
  kind : Byte
  seq : Byte
  status : Status
  fields : AnswerFields
  deriving DecidableEq, Repr

/-- The receiver states with the partial frame collected so far, in order of arrival (R151 to R153). -/
inductive Receiver
  | hunt
  /-- the length bytes taken so far -/
  | length (taken : List Byte)
  /-- the two length bytes, the number of bytes still to come, and the frame bytes taken -/
  | body (low high : Byte) (left : Nat) (taken : List Byte)
  /-- the two length bytes, the frame bytes, and the CRC bytes taken so far -/
  | check (low high : Byte) (content : List Byte) (crc : List Byte)
  deriving DecidableEq, Repr

/-- The sampler that makes characters of the RX line (R149). -/
inductive RxSampler
  /-- waiting for a start bit, with the prior sample -/
  | idle (prior : Bool)
  /-- inside a character: base-clock periods since the start bit was seen, and the data bits taken, the first first -/
  | character (elapsed : Nat) (bits : List Bool)
  /-- after a bad stop bit: waiting for the line to be high -/
  | recover
  deriving DecidableEq, Repr

/-- What a frame on TX carries (R159). -/
inductive TxItem
  | answer (a : Answer)
  | report (seq : Byte) (content : ReportContent)
  deriving DecidableEq, Repr

/-- The frame on the line and the base-clock periods it has run. -/
structure TxFrame where
  item : TxItem
  elapsed : Nat
  deriving DecidableEq, Repr

/-- What the Link Controller holds. -/
structure Link where
  receiver : Receiver
  /-- Stopped, or running with the steps of the millisecond clock left (R155). -/
  gapTimer : Option Nat
  framing : Nat
  gapAborts : Nat
  crcErrors : Nat
  overruns : Nat
  /-- The request queue, the oldest first (R158). -/
  requests : List Frame
  /-- The answer waiting (R160). -/
  waiting : Option Answer
  /-- The answer cache, the one stored longest ago first (R166). -/
  cache : List Answer
  /-- IDLE, or SENDING with the frame on the line (R159). -/
  tx : Option TxFrame
  rate : LinkRate
  /-- The levels of the RATE pins (R150). -/
  rate1 : Bool
  rate0 : Bool
  /-- A RESTART has been executed: no further frame is taken (R175). -/
  restartTaken : Bool
  /-- The level of the RX pin. -/
  rxRaw : Bool
  rxSampler : RxSampler
  deriving DecidableEq, Repr

/-! ### The part -/

/-- A device reset that holds: its cause and the base-clock periods it has held (R177). -/
structure ResetHold where
  cause : ResetCause
  elapsed : Nat
  deriving DecidableEq, Repr

/-- The whole part, and the commands that wait for it. -/
structure State where
  timebase : Timebase
  /-- The Entry Table; `none` is FREE (R16). -/
  entries : Vector (Option Entry) 64
  /-- The Due List, its head first (R23). -/
  dueList : List EntryIx
  lines : Vector OutLine 16
  halt : HaltUnit
  channels : Vector Channel 16
  reports : ReportQueue
  link : Link
  /-- Held in device reset (R177); none when the part runs. -/
  hold : Option ResetHold
  /-- The commands that wait, first in, first out: the model's own queue. -/
  pending : List Instr
  deriving DecidableEq, Repr

/-- There is no fault: the spec gives every event an effect, and errors are answers, reports and counters.
No command raises one (safe: nothing is stopped). -/
inductive Fault
  deriving DecidableEq, Repr

/-- Why a command has no meaning. -/
inductive Refusal
  /-- A row of the opcode table the model gives no meaning yet; raised by no arm of this model (safe: the run stops). -/
  | notModelled (mnemonic : String)
  deriving DecidableEq, Repr

/-! ### Reset values -/

/-- The Timebase after a device reset (R15). -/
def Timebase.afterReset (cntRaw : Bool) : Timebase :=
  ⟨0, .stopped, .internal, 24, 0, none, cntRaw, 0⟩

/-- An output line after a device reset (R74). -/
def OutLine.afterReset : OutLine := ⟨.direct, false, false, false⟩

/-- No halt cause. -/
def Causes.empty : Causes := ⟨false, false, false⟩

/-- The Halt Unit after a device reset, before the STOP line is tested; `stop` is the first sample (R89). -/
def HaltUnit.afterReset (stop : Bool) : HaltUnit :=
  ⟨Causes.empty, true, false, stop, none, stop, none⟩

/-- A channel's setup after a device reset (R106). -/
def ChannelSetup.afterReset : ChannelSetup := ⟨.off, .both, 0, false, 8, 32, 0⟩

/-- A channel and its journal items after a device reset; `level` is the first sample (R106, R127). -/
def Channel.afterReset (level : Bool) : Channel :=
  ⟨ChannelSetup.afterReset, level, level, none, none, 0, none, [], 0, false, false, none, false⟩

/-- The Report Queue after a device reset, before START is admitted (R148). -/
def ReportQueue.afterReset : ReportQueue :=
  ⟨[], 0, none, 0, .flowing, 50, 4, false, .batch, 63, 15, 15⟩

/-- The Report Queue with START admitted as number 0 (R134). -/
def ReportQueue.withStart (cause : ResetCause) (rate : LinkRate) : ReportQueue :=
  { ReportQueue.afterReset with reports := [⟨0, .start cause rate, false, false, false⟩], nextSeq := 1 }

/-- The Link Controller after a device reset with the RATE pins at the given levels (R163, R150). DESIGN CHOICE (log
entry 32): Table 9-3 gives the sampler of R149 no prior sample of RX; it is taken as high, the level of the line at rest, so
that RX low at the first sample after the reset is a fall and begins a character. Unsafe. -/
def Link.afterReset (rate1 rate0 rxRaw : Bool) : Link :=
  ⟨.hunt, none, 0, 0, 0, 0, [], none, [], none, LinkRate.ofPins rate1 rate0, rate1, rate0, false, rxRaw, .idle true⟩

/-- The part right after the device reset of a power-on, with START admitted and not yet taken by the transmitter
(R178). DESIGN CHOICE (log entry 5): the RATE pins are both low, STOP is high and so not active, CNT and the input
lines are low, RX rests high. Unsafe. -/
def State.reset : State where
  timebase := Timebase.afterReset false
  entries := Vector.replicate 64 none
  dueList := []
  lines := Vector.replicate 16 OutLine.afterReset
  halt := HaltUnit.afterReset true
  channels := Vector.replicate 16 (Channel.afterReset false)
  reports := ReportQueue.withStart .power (LinkRate.ofPins false false)
  link := Link.afterReset false false true
  hold := none
  pending := []

end Sys2Proof.Machine
end

