-- ==== Sys2Proof/Machine/Flags.lean ====
section
/-! DEFINITION. Conditions the spec derives from the state: modular time, quantities, the halt state, live entries,
driven levels, counts of the journal and the Report Queue. None of them is stored. -/

namespace Sys2Proof.Machine

/-! ### Modular time (section 1.3) -/

/-- A time is reached when (now - T) mod 2^32 is less than 2^31 (R5). -/
def reached (now t : Tick) : Bool := decide ((now - t).toNat < 2 ^ 31)

/-- The distance of a time: (T - now) mod 2^32 (R6). -/
def distance (now t : Tick) : Nat := (t - now).toNat

/-- The back distance of a time: (now - T) mod 2^32 (R30). -/
def backDistance (now t : Tick) : Nat := (now - t).toNat

/-- Adding to a saturating counter (00_scope.md, "Counts"). -/
def satAdd (n k : Nat) : Nat := min (n + k) Config.counterLimit

/-- A timer of N milliseconds, started now: it expires at the (N + 1)-th step of the millisecond clock (R8). -/
def startTimer (ms : Nat) : Option Nat := some (ms + 1)

/-! ### Quantities (R21) -/

/-- Above 0, or UNLIMITED. -/
def Quantity.positive : Quantity → Bool
  | .number n => decide (0 < n)
  | .unlimited => true

/-- Falls by `k`; UNLIMITED does not fall. -/
def Quantity.less (q : Quantity) (k : Nat) : Quantity :=
  match q with
  | .number n => .number (n - k)
  | .unlimited => .unlimited

/-- A count or arms field, 0 for no limit. -/
def Quantity.ofLimit (n : Nat) : Quantity := if n = 0 then .unlimited else .number n

/-! ### Places of the tables -/

/-- The record at an index of the Entry Table; none when it is FREE (R16). -/
def State.entry (s : State) (i : EntryIx) : Option Entry := s.entries[i.val]

/-- The items of an output line (R63). -/
def State.line (s : State) (n : LineIx) : OutLine := s.lines[n.val]

/-- The items of an input channel (R90). -/
def State.channel (s : State) (c : ChanIx) : Channel := s.channels[c.val]

/-- "Now": the present tick count. -/
abbrev State.now (s : State) : Tick := s.timebase.count

/-! ### Entries (sections 2.2, 2.3) -/

/-- Remaining at the start of a series (R21). -/
def Plan.firstRemaining (p : Plan) : Quantity :=
  match p.rep with
  | some r => Quantity.ofLimit r.count
  | none => .number 1

/-- The state of an entry (R22). -/
def Progress.state : Progress → EntryState
  | .waiting => .waiting
  | .pending _ _ => .pending
  | .trailing _ _ _ _ => .trailing
  | .retired => .retired

/-- The state of a place of the Entry Table, FREE when it holds no record (R16). -/
def entryState (e : Option Entry) : EntryState :=
  match e with
  | none => .free
  | some e => e.progress.state

/-- The due time, in PENDING and TRAILING (R21). -/
def Progress.due : Progress → Option Tick
  | .pending d _ => some d
  | .trailing d _ _ _ => some d
  | _ => none

/-- Remaining, in PENDING and TRAILING (R21). -/
def Progress.remaining : Progress → Option Quantity
  | .pending _ r => some r
  | .trailing _ _ r _ => some r
  | _ => none

/-- WAITING, PENDING and TRAILING are the live states (R22). -/
def Progress.live : Progress → Bool
  | .retired => false
  | _ => true

/-- TRAILING (R22). -/
def Progress.isTrailing : Progress → Bool
  | .trailing _ _ _ _ => true
  | _ => false

/-- A place of the table holds a live entry. -/
def liveEntry (e : Option Entry) : Bool :=
  match e with
  | none => false
  | some e => e.progress.live

/-- A live entry is on the table (R9, R10). -/
def State.anyLive (s : State) : Bool := s.entries.toList.any liveEntry

/-- A live entry names the line (R69, R71). -/
def State.lineHeld (s : State) (n : LineIx) : Bool :=
  s.entries.toList.any fun e =>
    match e with
    | none => false
    | some e => e.progress.live && decide (e.plan.line = n)

/-- Arms left are above 0 or UNLIMITED. -/
def Entry.armed (e : Entry) : Bool :=
  match e.armsLeft with
  | some q => q.positive
  | none => false

/-- An entry could wait on the channel: it is WAITING, or it is started ON, PENDING or TRAILING with arms left and no
cancel flag (R103). -/
def Entry.couldWaitOn (e : Entry) (c : ChanIx) : Bool :=
  match e.plan.start with
  | .onTrigger ch _ _ _ =>
    decide (ch = c) &&
      match e.progress with
      | .waiting => true
      | .pending _ _ => e.armed
      | .trailing _ _ _ cancelled => e.armed && !cancelled
      | .retired => false
  | _ => false

/-- An entry could wait on the channel (R103). -/
def State.channelHeld (s : State) (c : ChanIx) : Bool :=
  s.entries.toList.any fun e =>
    match e with
    | none => false
    | some e => e.couldWaitOn c

/-- The number of places of the table in a state (R16, R173). -/
def State.entriesIn (s : State) (st : EntryState) : Nat :=
  s.entries.toList.countP fun e => decide (entryState e = st)

/-- The lowest-numbered FREE entry (R16). -/
def State.lowestFree (s : State) : Option EntryIx :=
  (List.finRange 64).find? fun i => (s.entry i).isNone

/-! ### Halt and lines (chapters 4 and 5) -/

/-- The cause set is not empty. -/
def Causes.any (c : Causes) : Bool := c.request || c.stopLine || c.silence

/-- The union of two cause sets. -/
def Causes.union (a b : Causes) : Causes :=
  ⟨a.request || b.request, a.stopLine || b.stopLine, a.silence || b.silence⟩

/-- Every cause of `a` is in `b`. -/
def Causes.within (a b : Causes) : Bool := decide (a.union b = b)

/-- The cause REQUEST alone. -/
def Causes.ofRequest : Causes := ⟨true, false, false⟩
/-- The cause STOP_LINE alone. -/
def Causes.ofStopLine : Causes := ⟨false, true, false⟩
/-- The cause SILENCE alone. -/
def Causes.ofSilence : Causes := ⟨false, false, true⟩

/-- The timeline is HALTED exactly when the cause set is not empty (R75). -/
def State.halted (s : State) : Bool := s.halt.causes.any

/-- The STOP line is active: enabled, and its filtered level is the active level (R76). -/
def HaltUnit.stopIsActive (h : HaltUnit) : Bool := h.stopEnable && (h.stopFiltered == h.stopActive)

/-- The timebase is RUNNING (R2). -/
def State.running (s : State) : Bool := decide (s.timebase.state = .running)

/-- The driven level of a line (Table 4-2, R64). -/
def OutLine.driven (l : OutLine) (halted : Bool) : Bool :=
  if halted then l.safe
  else
    match l.mode with
    | .direct => l.direct
    | .timed => l.timed

/-- The driven level of line `n`, the level of its pin (R64, R65). -/
def State.drivenLevel (s : State) (n : LineIx) : Bool := (s.line n).driven s.halted

/-- A group of sixteen members, member n at bit n (R180). -/
def levelsOf (f : Fin 16 → Bool) : Levels := BitVec.ofFnLE f

/-- The driven levels of all lines (R72, R73). -/
def State.drivenLevels (s : State) : Levels := levelsOf s.drivenLevel

/-! ### Journal (chapter 7) -/

/-- The records of a report that belong to the channel: those of its BATCH reports (R107). -/
def ReportContent.recordsOf (content : ReportContent) (c : ChanIx) : List Record :=
  match content with
  | .batch ch _ records => if ch = c then records else []
  | _ => []

/-- The records of a channel in the batch reports of a queue, in order of admission. -/
def batchRecords (reports : List Report) (c : ChanIx) : List Record :=
  reports.flatMap fun r => r.content.recordsOf c

/-- The held count of a channel: its unreported records with its records in batch reports (R110). -/
def State.heldCount (s : State) (c : ChanIx) : Nat :=
  (s.channel c).unreported.length + (batchRecords s.reports.reports c).length

/-- The held counts of all channels together. -/
def State.heldTotal (s : State) : Nat := ((List.finRange 16).map s.heldCount).sum

/-- The free record places: 256 less the held counts (R107). -/
def State.freePlaces (s : State) : Nat := Config.recordPlaces - s.heldTotal

/-- A channel has a batch ready (R114). -/
def Channel.batchReady (ch : Channel) : Bool :=
  decide (ch.setup.threshold ≤ ch.unreported.length) || ch.lingerDue || ch.flushFlag

/-! ### Report Queue and link (chapters 8 and 9) -/

/-- The number of reports in the queue that are sent (R128). -/
def ReportQueue.sentCount (q : ReportQueue) : Nat := q.reports.countP Report.sent

/-- A BATCH report. -/
def ReportContent.isBatch : ReportContent → Bool
  | .batch _ _ _ => true
  | _ => false

/-- The base of the stale rule: the number at the head, or the counter when the queue is empty (R142). -/
def ReportQueue.base (q : ReportQueue) : Byte :=
  match q.reports with
  | [] => q.nextSeq
  | r :: _ => r.seq

/-- A frame may be taken from the request queue: the answer waiting is empty (R160), no RESTART has been executed
(R175), and no device reset holds (R177). -/
def State.canTake (s : State) : Bool :=
  s.hold.isNone && s.link.waiting.isNone && !s.link.restartTaken

/-- The cached answer for a request number (R165). -/
def Link.cached (l : Link) (seq : Byte) : Option Answer := l.cache.find? fun a => a.seq == seq

end Sys2Proof.Machine
end

