-- ==== Sys2Proof/Machine/Operands.lean ====
section
/-! DEFINITION. The operands of the requests: how a body's bytes are read (chapter 11).

Each reader answers a status, FORMAT or VALUE, or the request's fields. FORMAT is judged before any value (R169). -/

namespace Sys2Proof.Machine

/-- Two bytes, the low byte first (R179). -/
def number16 (low high : Byte) : Nat := low.toNat + 256 * high.toNat

/-- Two bytes as a tag, the low byte first (R179). -/
def tag16 (low high : Byte) : BitVec 16 := high ++ low

/-- Four bytes as a tick value, the low byte first (R179, R180). -/
def tick32 (b0 b1 b2 b3 : Byte) : Tick := b3 ++ b2 ++ b1 ++ b0

/-- A flag: 1 for on, set or yes, 0 for off, clear or no; no other value (R180). -/
def flagOf (b : Byte) : Option Bool :=
  if b = 0 then some false else if b = 1 then some true else none

/-- A level, 0 or 1 (R181). -/
def levelOf (b : Byte) : Option Bool := flagOf b

/-- A number below `n`. -/
def below (n : Nat) (b : Byte) : Option (Fin n) :=
  if h : b.toNat < n then some ⟨b.toNat, h⟩ else none

/-- A tick value from 1 to the horizon: a width, a period or a start delay (R26). -/
def withinHorizon (t : Tick) : Bool := decide (1 ≤ t.toNat) && decide (t.toNat ≤ Config.horizon)

/-! ### Codes (Table 11-2) -/

/-- A source code. -/
def Source.ofCode (b : Byte) : Option Source :=
  if b = 0 then some .internal else if b = 1 then some .external else none

/-- A line mode code. -/
def LineMode.ofCode (b : Byte) : Option LineMode :=
  if b = 0 then some .direct else if b = 1 then some .timed else none

/-- A channel mode code. -/
def ChannelMode.ofCode (b : Byte) : Option ChannelMode :=
  if b = 0 then some .off else if b = 1 then some .capture else if b = 2 then some .watch else none

/-- A capture sense code. -/
def CaptureSense.ofCode (b : Byte) : Option CaptureSense :=
  if b = 0 then some .rise else if b = 1 then some .fall else if b = 2 then some .both else none

/-- A trigger sense code. -/
def TriggerSense.ofCode (b : Byte) : Option TriggerSense :=
  if b = 0 then some .rise else if b = 1 then some .fall else if b = 2 then some .any else none

/-- A late policy code. -/
def LatePolicy.ofCode (b : Byte) : Option LatePolicy :=
  if b = 0 then some .fire else if b = 1 then some .refuse else none

/-! ### The fixed bodies (Table 11-3) -/

/-- A request that carries no fields: only an empty body fits (R169). -/
def readEmpty (body : List Byte) : Except Status Unit :=
  match body with
  | [] => .ok ()
  | _ => .error .format

/-- TIME-SETUP: source, divider (R9). -/
def readTimeSetup (body : List Byte) : Except Status (Source × Nat) :=
  match body with
  | [src, lo, hi] =>
    match Source.ofCode src with
    | some source => if number16 lo hi = 0 then .error .value else .ok (source, number16 lo hi)
    | none => .error .value
  | _ => .error .format

/-- TIME-SET: the count (R10). -/
def readTimeSet (body : List Byte) : Except Status Tick :=
  match body with
  | [b0, b1, b2, b3] => .ok (tick32 b0 b1 b2 b3)
  | _ => .error .format

/-- One byte that takes every value: the report number of ACK (R141). -/
def readAck (body : List Byte) : Except Status Byte :=
  match body with
  | [b] => .ok b
  | _ => .error .format

/-- The clear flag of STATUS (R173). -/
def readStatus (body : List Byte) : Except Status Bool :=
  match body with
  | [b] =>
    match flagOf b with
    | some f => .ok f
    | none => .error .value
  | _ => .error .format

/-- The index of ENTRY-QUERY and the starting index of ENTRY-LIST (R36, R37). -/
def readIndex (body : List Byte) : Except Status EntryIx :=
  match body with
  | [b] =>
    match below 64 b with
    | some i => .ok i
    | none => .error .value
  | _ => .error .format

/-- Which entries a CANCEL names (R57). -/
inductive Selector
  | index (i : EntryIx)
  | tag (t : BitVec 16)
  deriving DecidableEq, Repr

/-- CANCEL: 0 and an index, or 1 and a tag; any other selector or length is FORMAT (R57, R181). -/
def readCancel (body : List Byte) : Except Status Selector :=
  match body with
  | [sel, b] =>
    if sel = 0 then
      match below 64 b with
      | some i => .ok (.index i)
      | none => .error .value
    else .error .format
  | [sel, lo, hi] => if sel = 1 then .ok (.tag (tag16 lo hi)) else .error .format
  | _ => .error .format

/-- LINE-SETUP: line, mode, safe level (R69). -/
def readLineSetup (body : List Byte) : Except Status (LineIx × LineMode × Bool) :=
  match body with
  | [l, m, v] =>
    match below 16 l, LineMode.ofCode m, levelOf v with
    | some line, some mode, some safe => .ok (line, mode, safe)
    | _, _, _ => .error .value
  | _ => .error .format

/-- LINE-WRITE: mask, values (R72). -/
def readLineWrite (body : List Byte) : Except Status (Levels × Levels) :=
  match body with
  | [m0, m1, v0, v1] => .ok (tag16 m0 m1, tag16 v0 v1)
  | _ => .error .format

/-- STOP-SETUP: enable, active level (R78). -/
def readStopSetup (body : List Byte) : Except Status (Bool × Bool) :=
  match body with
  | [e, a] =>
    match flagOf e, levelOf a with
    | some enable, some active => .ok (enable, active)
    | _, _ => .error .value
  | _ => .error .format

/-- LINK-SETUP: report timeout, retry limit, halt-on-silence (R145). -/
def readLinkSetup (body : List Byte) : Except Status (Nat × Nat × Bool) :=
  match body with
  | [t0, t1, limit, h] =>
    match flagOf h with
    | some hos =>
      if number16 t0 t1 < 5 ∨ 1000 < number16 t0 t1 ∨ 15 < limit.toNat then .error .value
      else .ok (number16 t0 t1, limit.toNat, hos)
    | none => .error .value
  | _ => .error .format

/-- CHANNEL-SETUP: channel, mode, capture sense, filter, interval, threshold, quota, linger (R102). -/
def readChannelSetup (body : List Byte) : Except Status (ChanIx × ChannelSetup) :=
  match body with
  | [c, m, sn, f0, f1, iv, th, q0, q1, g0, g1] =>
    match below 16 c, ChannelMode.ofCode m, CaptureSense.ofCode sn, flagOf iv with
    | some ch, some mode, some sense, some interval =>
      if 1023 < number16 f0 f1 ∨ th.toNat = 0 ∨ 48 < th.toNat ∨ number16 q0 q1 = 0 ∨ 256 < number16 q0 q1 ∨
          60000 < number16 g0 g1 then .error .value
      else .ok (ch, ⟨mode, sense, number16 f0 f1, interval, th.toNat, number16 q0 q1, number16 g0 g1⟩)
    | _, _, _, _ => .error .value
  | _ => .error .format

/-- CHANNEL-QUERY: channel, clear flag (R105). -/
def readChannelQuery (body : List Byte) : Except Status (ChanIx × Bool) :=
  match body with
  | [c, f] =>
    match below 16 c, flagOf f with
    | some ch, some clear => .ok (ch, clear)
    | _, _ => .error .value
  | _ => .error .format

/-- FLUSH: 0 to 15 name a channel, 0xFF names all (R118, R181); the answer is the channels named. -/
def readFlush (body : List Byte) : Except Status (List ChanIx) :=
  match body with
  | [b] =>
    match below 16 b with
    | some c => .ok [c]
    | none => if b = 0xFF then .ok (List.finRange 16) else .error .value
  | _ => .error .format

/-! ### PLACE (R26, R182) -/

/-- The fields of a PLACE body as they stand in it, an absent field absent (Table 11-4). -/
structure PlaceFields where
  tag : BitVec 16
  line : Byte
  action : Byte
  start : Byte
  notify : Byte
  width : Option Tick
  startTime : Option Tick
  startDelay : Option Tick
  trigger : Option (Byte × Byte × Tick)
  arms : Option Nat
  late : Option Byte
  period : Option Tick
  count : Option Nat
  deriving DecidableEq, Repr

/-- The bytes a reader has still before it, with what it has read; none when bytes were wanting. -/
abbrev Taken (α : Type) := Option (Option α × List Byte)

/-- An optional field of four bytes. -/
def takeTick (present : Bool) (bytes : List Byte) : Taken Tick :=
  if present then
    match bytes with
    | b0 :: b1 :: b2 :: b3 :: rest => some (some (tick32 b0 b1 b2 b3), rest)
    | _ => none
  else some (none, bytes)

/-- An optional field of two bytes. -/
def takeNumber (present : Bool) (bytes : List Byte) : Taken Nat :=
  if present then
    match bytes with
    | b0 :: b1 :: rest => some (some (number16 b0 b1), rest)
    | _ => none
  else some (none, bytes)

/-- An optional field of one byte. -/
def takeByte (present : Bool) (bytes : List Byte) : Taken Byte :=
  if present then
    match bytes with
    | b :: rest => some (some b, rest)
    | _ => none
  else some (none, bytes)

/-- The optional trigger: channel, sense, delay. -/
def takeTrigger (present : Bool) (bytes : List Byte) : Taken (Byte × Byte × Tick) :=
  if present then
    match bytes with
    | c :: sn :: b0 :: b1 :: b2 :: b3 :: rest => some (some (c, sn, tick32 b0 b1 b2 b3), rest)
    | _ => none
  else some (none, bytes)

/-- The fields of a PLACE body by its presence indicator; none when the length does not fit (R182). -/
def readPlaceFields (body : List Byte) : Option PlaceFields :=
  match body with
  | t0 :: t1 :: line :: action :: start :: notify :: p :: rest => do
    let (width, rest) ← takeTick (p.getLsbD 0) rest
    let (startTime, rest) ← takeTick (p.getLsbD 1) rest
    let (startDelay, rest) ← takeTick (p.getLsbD 2) rest
    let (trigger, rest) ← takeTrigger (p.getLsbD 3) rest
    let (arms, rest) ← takeNumber (p.getLsbD 4) rest
    let (late, rest) ← takeByte (p.getLsbD 5) rest
    let (period, rest) ← takeTick (p.getLsbD 6) rest
    let (count, rest) ← takeNumber (p.getLsbD 7) rest
    match rest with
    | [] =>
      some ⟨tag16 t0 t1, line, action, start, notify, width, startTime, startDelay, trigger, arms, late, period, count⟩
    | _ :: _ => none
  | _ => none

/-- Action codes 3 and 4 are pulses, every other code a single action (R182). -/
def pulseCode (action : Byte) : Bool := action == 3 || action == 4

/-- The presence of the fields fits the action and the start form: the FORMAT check of PLACE (R26). -/
def PlaceFields.formatOk (f : PlaceFields) : Bool :=
  (f.width.isSome == pulseCode f.action) &&
  (!(f.start == 0) || (f.startTime.isSome && f.late.isSome)) &&
  (!(f.start == 1) || f.startDelay.isSome) &&
  (!(f.start == 2) || (f.trigger.isSome && f.arms.isSome)) &&
  (!f.period.isSome || f.count.isSome)

/-- The action a code and a width give; none fails VALUE (R26). -/
def placeAction (code : Byte) (width : Option Tick) : Option Action :=
  match width with
  | none =>
    if code = 0 then some .setLine else if code = 1 then some .clearLine else if code = 2 then some .toggleLine else none
  | some w =>
    if withinHorizon w then
      if code = 3 then some (.pulseHigh w) else if code = 4 then some (.pulseLow w) else none
    else none

/-- The start form with its fields; none when a field is out of range or present where it is not allowed (R26). -/
def PlaceFields.startForm (f : PlaceFields) : Option Start :=
  if f.start = 0 then
    match f.startTime, f.startDelay, f.trigger, f.arms, f.late with
    | some t, none, none, none, some code => (LatePolicy.ofCode code).map (Start.atTime t)
    | _, _, _, _, _ => none
  else if f.start = 1 then
    match f.startTime, f.startDelay, f.trigger, f.arms, f.late with
    | none, some d, none, none, none => if withinHorizon d then some (.afterDelay d) else none
    | _, _, _, _, _ => none
  else if f.start = 2 then
    match f.startTime, f.startDelay, f.trigger, f.arms, f.late with
    | none, none, some (c, sn, d), some arms, none =>
      match below 16 c, TriggerSense.ofCode sn with
      | some ch, some sense => if d.toNat ≤ Config.horizon then some (.onTrigger ch sense d arms) else none
      | _, _ => none
    | _, _, _, _, _ => none
  else none

/-- The period with its count; none when the period is out of range or a count stands without one (R26). -/
def PlaceFields.repetition (f : PlaceFields) : Option (Option Repeat) :=
  match f.period, f.count with
  | none, none => some none
  | some p, some c => if withinHorizon p then some (some ⟨p, c⟩) else none
  | _, _ => none

/-- The width is less than the period, when both are present (R26). -/
def widthFits (width : Option Tick) (period : Option Tick) : Bool :=
  match width, period with
  | some w, some p => decide (w.toNat < p.toNat)
  | _, _ => true

/-- The entry a PLACE names, when its fields pass the VALUE check (R26). -/
def PlaceFields.plan (f : PlaceFields) : Option Plan :=
  match below 16 f.line, placeAction f.action f.width, f.startForm, f.repetition with
  | some line, some action, some start, some rep =>
    if f.notify.toNat ≤ 3 ∧ widthFits f.width f.period = true then
      some ⟨f.tag, line, action, start, rep, f.notify.getLsbD 0, f.notify.getLsbD 1⟩
    else none
  | _, _, _, _ => none

/-- PLACE: FORMAT, then VALUE, then the entry's fixed fields (R25, R26). -/
def readPlace (body : List Byte) : Except Status Plan :=
  match readPlaceFields body with
  | none => .error .format
  | some f =>
    if f.formatOk then
      match f.plan with
      | some p => .ok p
      | none => .error .value
    else .error .format

end Sys2Proof.Machine
end

