-- ==== Sys2Proof/Machine/Layout.lean ====
section
/-! DEFINITION. The bytes of frames: the CRC, the fields of every answer and report, the whole frame (chapter 11). -/

namespace Sys2Proof.Machine

/-! ### Numbers, flags and sets (R179, R180) -/

/-- A number in two bytes, the low byte first. -/
def bytes16 (n : Nat) : List Byte := [BitVec.ofNat 8 n, BitVec.ofNat 8 (n / 256)]

/-- A number in one byte. -/
def bytes8 (n : Nat) : List Byte := [BitVec.ofNat 8 n]

/-- A number in four bytes, the low byte first. -/
def bytes32 (n : Nat) : List Byte :=
  [BitVec.ofNat 8 n, BitVec.ofNat 8 (n / 256), BitVec.ofNat 8 (n / 65536), BitVec.ofNat 8 (n / 16777216)]

/-- A tick value, four bytes. -/
def tickBytes (t : Tick) : List Byte := bytes32 t.toNat

/-- A flag: 1 for on, set or yes. -/
def flagBytes (b : Bool) : List Byte := [if b then 1 else 0]

/-- The bit of a member of a set. -/
def memberBit (b : Bool) (at' : Nat) : Nat := if b then 2 ^ at' else 0

/-- A quantity that may be UNLIMITED, four bytes (R180). -/
def quantityBytes : Quantity → List Byte
  | .number n => bytes32 n
  | .unlimited => bytes32 0xFFFFFFFF

/-- An optional field: its bytes when present. -/
def optBytes {α : Type} (f : α → List Byte) (o : Option α) : List Byte :=
  match o with
  | some a => f a
  | none => []

/-- A group of sixteen members, two bytes. -/
def levelsBytes (l : Levels) : List Byte := bytes16 l.toNat

/-! ### Codes (Table 11-2) -/

/-- The status codes. -/
def Status.code : Status → Nat
  | .ok => 0
  | .unknown => 1
  | .format => 2
  | .value => 3
  | .state => 4
  | .room => 5
  | .none => 6
  | .late => 7
  | .line => 8
  | .halted => 9

/-- The action codes. -/
def Action.code : Action → Nat
  | .setLine => 0
  | .clearLine => 1
  | .toggleLine => 2
  | .pulseHigh _ => 3
  | .pulseLow _ => 4

/-- The width of a pulse (R17). -/
def Action.width : Action → Option Tick
  | .pulseHigh w => some w
  | .pulseLow w => some w
  | _ => none

/-- The start form codes. -/
def Start.code : Start → Nat
  | .atTime _ _ => 0
  | .afterDelay _ => 1
  | .onTrigger _ _ _ _ => 2

/-- The trigger sense codes. -/
def TriggerSense.code : TriggerSense → Nat
  | .rise => 0
  | .fall => 1
  | .any => 2

/-- The late policy codes. -/
def LatePolicy.code : LatePolicy → Nat
  | .fire => 0
  | .refuse => 1

/-- The entry state codes. -/
def EntryState.code : EntryState → Nat
  | .free => 0
  | .waiting => 1
  | .pending => 2
  | .trailing => 3
  | .retired => 4

/-- The final outcome codes. -/
def FinalOutcome.code : FinalOutcome → Nat
  | .done => 0
  | .cancelled => 1
  | .missed => 2

/-- The channel mode codes. -/
def ChannelMode.code : ChannelMode → Nat
  | .off => 0
  | .capture => 1
  | .watch => 2

/-- The capture sense codes. -/
def CaptureSense.code : CaptureSense → Nat
  | .rise => 0
  | .fall => 1
  | .both => 2

/-- The line mode codes. -/
def LineMode.code : LineMode → Nat
  | .direct => 0
  | .timed => 1

/-- The timebase state codes. -/
def TimebaseState.code : TimebaseState → Nat
  | .stopped => 0
  | .running => 1

/-- The source codes. -/
def Source.code : Source → Nat
  | .internal => 0
  | .external => 1

/-- The report state codes. -/
def ReportState.code : ReportState → Nat
  | .flowing => 0
  | .silent => 1

/-- The reset cause codes. -/
def ResetCause.code : ResetCause → Nat
  | .power => 0
  | .pin => 1
  | .restart => 2

/-- A cause set: REQUEST bit 0, STOP_LINE bit 1, SILENCE bit 2. -/
def Causes.code (c : Causes) : Nat := memberBit c.request 0 + memberBit c.stopLine 1 + memberBit c.silence 2

/-- The events seen: FIRED bit 0, LATE bit 1, MISSED bit 2, OVERRUN bit 3. -/
def EntryNotice.eventsCode (n : EntryNotice) : Nat :=
  memberBit n.fired 0 + memberBit n.late 1 + memberBit n.missed 2 + memberBit n.overrun 3

/-- A notify set: EACH bit 0, END bit 1. -/
def Plan.notifyCode (p : Plan) : Nat := memberBit p.each 0 + memberBit p.final 1

/-! ### The CRC (R179) -/

/-- One bit taken into the CRC register. -/
def crcBit (reg : BitVec 16) (bit : Bool) : BitVec 16 :=
  if reg.msb == bit then reg <<< 1 else (reg <<< 1) ^^^ 0x1021

/-- One byte taken into the CRC register, most significant bit first. -/
def crcByte (reg : BitVec 16) (b : Byte) : BitVec 16 :=
  ((List.range 8).map fun k => b.getLsbD (7 - k)).foldl crcBit reg

/-- The CRC of the bytes: the register starts at 0xFFFF. -/
def crc (bytes : List Byte) : BitVec 16 := bytes.foldl crcByte 0xFFFF

/-! ### Answers (R183) -/

/-- The setup fields in the order of R102, without the channel number (Table 11-8). -/
def ChannelSetup.bytes (c : ChannelSetup) : List Byte :=
  bytes8 c.mode.code ++ bytes8 c.sense.code ++ bytes16 c.filter ++ flagBytes c.interval ++ bytes8 c.threshold ++
    bytes16 c.quota ++ bytes16 c.linger

/-- The slot's notice; none when the slot is empty. -/
def EntrySlot.notice : EntrySlot → Option EntryNotice
  | .empty => none
  | .collecting n => some n
  | .pending n => some n

/-- The slot condition codes. -/
def EntrySlot.code : EntrySlot → Nat
  | .empty => 0
  | .collecting _ => 1
  | .pending _ => 2

/-- The start time (Table 2-1). -/
def Start.time : Start → Option Tick
  | .atTime t _ => some t
  | _ => none

/-- The late policy (Table 2-1). -/
def Start.late : Start → Option LatePolicy
  | .atTime _ l => some l
  | _ => none

/-- The start delay (Table 2-1). -/
def Start.delay : Start → Option Tick
  | .afterDelay d => some d
  | _ => none

/-- The trigger's bytes: channel, sense, delay. -/
def Start.triggerBytes : Start → Option (List Byte)
  | .onTrigger c sn d _ => some (bytes8 c.val ++ bytes8 sn.code ++ tickBytes d)
  | _ => none

/-- The arms (Table 2-1). -/
def Start.arms : Start → Option Nat
  | .onTrigger _ _ _ a => some a
  | _ => none

/-- The lead, in TRAILING (R21). -/
def Progress.lead : Progress → Option Tick
  | .trailing _ l _ _ => some l
  | _ => none

/-- The cancel flag: clear except in TRAILING (Table 2-1). -/
def Progress.cancelFlag : Progress → Bool
  | .trailing _ _ _ c => c
  | _ => false

/-- The ENTRY-QUERY fields (Table 11-5). -/
def entryQueryBytes (index : EntryIx) (e : Entry) : List Byte :=
  let p := e.plan
  let n := e.slot.notice
  bytes8 index.val ++ bytes8 e.progress.state.code ++ bytes16 p.tag.toNat ++ bytes8 p.line.val ++ bytes8 p.action.code ++
    bytes8 p.start.code ++ bytes8 p.notifyCode ++ flagBytes e.progress.cancelFlag ++
    bytes16 (memberBit p.action.width.isSome 0 + memberBit p.start.time.isSome 1 + memberBit p.start.delay.isSome 2 +
      memberBit p.start.triggerBytes.isSome 3 + memberBit p.start.arms.isSome 4 + memberBit p.start.late.isSome 5 +
      memberBit p.rep.isSome 6 + memberBit p.rep.isSome 7 + memberBit e.progress.due.isSome 8 +
      memberBit e.progress.lead.isSome 9 + memberBit e.progress.remaining.isSome 10 + memberBit e.armsLeft.isSome 11) ++
    bytes8 e.slot.code ++
    (match n with
      | some n => bytes8 n.eventsCode ++ bytes16 n.firedCount ++ bytes16 n.missedCount ++ bytes16 n.overrunCount ++
          bytes8 (1 + memberBit n.outcome.isSome 1 + memberBit n.remaining.isSome 2)
      | none => bytes8 0 ++ bytes16 0 ++ bytes16 0 ++ bytes16 0 ++ bytes8 0) ++
    optBytes tickBytes p.action.width ++ optBytes tickBytes p.start.time ++ optBytes tickBytes p.start.delay ++
    optBytes id p.start.triggerBytes ++ optBytes bytes16 p.start.arms ++
    optBytes (fun l => bytes8 (LatePolicy.code l)) p.start.late ++
    optBytes (fun r => tickBytes r.period) p.rep ++ optBytes (fun r => bytes16 r.count) p.rep ++
    optBytes tickBytes e.progress.due ++ optBytes tickBytes e.progress.lead ++
    optBytes quantityBytes e.progress.remaining ++ optBytes quantityBytes e.armsLeft ++
    (match n with
      | some n => tickBytes n.lastTick ++ optBytes (fun o => bytes8 (FinalOutcome.code o)) n.outcome ++
          optBytes quantityBytes n.remaining
      | none => [])

/-- One listed entry (Table 11-7). -/
def ListedEntry.bytes (l : ListedEntry) : List Byte :=
  bytes8 l.index.val ++ bytes8 l.state.code ++ bytes16 l.tag.toNat ++ bytes8 l.line.val ++
    bytes8 (memberBit l.due.isSome 0) ++ optBytes tickBytes l.due

/-- The STATUS fields (Table 11-6). -/
def StatusView.bytes (v : StatusView) : List Byte :=
  tickBytes v.count ++ bytes8 v.timebase.code ++ bytes8 v.source.code ++ flagBytes v.halted ++ bytes8 v.causes.code ++
    flagBytes v.stopEnable ++ flagBytes v.stopFiltered ++ bytes8 v.free ++ bytes8 v.waiting ++ bytes8 v.pending ++
    bytes8 v.trailing ++ bytes8 v.retired ++ bytes16 v.freePlaces ++ bytes8 v.reportState.code ++
    bytes8 v.reportsQueued ++ bytes8 v.reportsSent ++ bytes8 v.retries ++ [v.nextSeq] ++ bytes16 v.framing ++
    bytes16 v.gapAborts ++ bytes16 v.crcErrors ++ bytes16 v.overruns ++ bytes8 v.requestsQueued

/-- The LINES-READ fields in the order of R73. -/
def LinesView.bytes (v : LinesView) : List Byte :=
  levelsBytes v.rawInputs ++ levelsBytes v.filteredInputs ++ levelsBytes v.driven ++ levelsBytes v.modes ++
    levelsBytes v.safe ++ levelsBytes v.direct ++ levelsBytes v.timed ++ flagBytes v.halted

/-- The CHANNEL-QUERY fields (Table 11-8). -/
def ChannelView.bytes (v : ChannelView) : List Byte :=
  v.setup.bytes ++ flagBytes v.raw ++ flagBytes v.filtered ++ flagBytes v.windowStamp.isSome ++
    optBytes tickBytes v.windowStamp ++ flagBytes v.referencePresent ++ bytes16 v.glitches ++ flagBytes v.level.isSome ++
    optBytes (fun l => bytes16 (LevelNotice.changes l) ++ tickBytes l.first ++ tickBytes l.last) v.level ++
    bytes16 v.held ++ bytes16 v.unreported ++ bytes16 v.lost ++ flagBytes v.flushFlag

/-- The fields an answer carries after its status. DEDUCED (log entry 8): where chapter 11 gives no table, the fields
stand in the order the owning rule lists them, and counts take two bytes (R180). -/
def AnswerFields.bytes : AnswerFields → List Byte
  | .none => []
  | .hello rate =>
    bytes16 Config.familyCode ++ bytes8 Config.revision ++ bytes16 16 ++ bytes16 16 ++ bytes16 64 ++
      bytes16 Config.recordPlaces ++ bytes16 Config.reportPlaces ++ bytes16 Config.reportWindow ++
      bytes16 Config.requestPlaces ++ bytes32 rate.baud
  | .status v => v.bytes
  | .count n => bytes16 n
  | .reportsOn st queued => bytes8 st.code ++ bytes16 queued
  | .linkSetup timeout limit hos => bytes16 timeout ++ bytes8 limit ++ flagBytes hos
  | .linkReset notices batches records => bytes16 notices ++ bytes16 batches ++ bytes16 records
  | .tick value => tickBytes value
  | .timeRead value st source divider => tickBytes value ++ bytes8 st.code ++ bytes8 source.code ++ bytes16 divider
  | .place index st due remaining late missed =>
    bytes8 index.val ++ bytes8 st.code ++ flagBytes late ++ bytes32 missed ++
      bytes8 (memberBit due.isSome 0 + memberBit remaining.isSome 1) ++ optBytes tickBytes due ++
      optBytes quantityBytes remaining
  | .entryQuery index e => entryQueryBytes index e
  | .entryList listed continuation =>
    bytes8 listed.length ++ listed.flatMap ListedEntry.bytes ++ bytes8 (memberBit continuation.isSome 0) ++
      optBytes (fun i : EntryIx => bytes8 i.val) continuation
  | .cancel atOnce deferred => bytes16 atOnce ++ bytes16 deferred
  | .lineSetup mode safe driven => bytes8 mode.code ++ flagBytes safe ++ flagBytes driven
  | .lineWrite driven => levelsBytes driven
  | .linesRead v => v.bytes
  | .halt halted causes => flagBytes halted ++ bytes8 causes.code
  | .resume halted causes level => flagBytes halted ++ bytes8 causes.code ++ flagBytes level
  | .stopSetup enable active filtered halted causes =>
    flagBytes enable ++ flagBytes active ++ flagBytes filtered ++ flagBytes halted ++ bytes8 causes.code
  | .channelSetup setup filtered abandoned => setup.bytes ++ flagBytes filtered ++ flagBytes abandoned
  | .channelQuery v => v.bytes
  | .flush channels records => bytes16 channels ++ bytes16 records

/-- The body of an answer: the status code, then its fields (R183). -/
def Answer.body (a : Answer) : List Byte := bytes8 a.status.code ++ a.fields.bytes

/-! ### Reports (R184) -/

/-- A record of a BATCH body. -/
def Record.bytes (r : Record) : List Byte :=
  bytes8 (memberBit (decide (r.edge = .fall)) 0 + memberBit r.interval.isSome 1 + memberBit r.afterLoss 2) ++
    tickBytes r.stamp ++ optBytes tickBytes r.interval

/-- The kind code of a report (Table 11-9). -/
def ReportContent.kind : ReportContent → Byte
  | .start _ _ => 0x60
  | .batch _ _ _ => 0x61
  | .entry _ _ _ => 0x62
  | .level _ _ _ => 0x63
  | .halt _ _ _ _ => 0x64

/-- The body of a report (Table 11-9). -/
def ReportContent.body : ReportContent → List Byte
  | .start cause rate => bytes8 cause.code ++ bytes8 Config.revision ++ bytes32 rate.baud
  | .batch c lost records => bytes8 c.val ++ bytes8 records.length ++ bytes16 lost ++ records.flatMap Record.bytes
  | .entry i tag n =>
    bytes8 i.val ++ bytes16 tag.toNat ++ bytes8 n.eventsCode ++ bytes16 n.firedCount ++ bytes16 n.missedCount ++
      bytes16 n.overrunCount ++ tickBytes n.lastTick ++
      bytes8 (memberBit n.outcome.isSome 0 + memberBit n.remaining.isSome 1) ++
      optBytes (fun o => bytes8 (FinalOutcome.code o)) n.outcome ++ optBytes quantityBytes n.remaining
  | .level c levelNow n =>
    bytes8 c.val ++ flagBytes levelNow ++ bytes16 n.changes ++ tickBytes n.first ++ tickBytes n.last
  | .halt halted causes added stopLevel =>
    flagBytes halted ++ bytes8 causes.code ++ bytes8 added.code ++ flagBytes stopLevel

/-! ### Frames (Table 11-1, R159) -/

/-- The bytes the CRC is taken over: the length, the kind, the sequence number and the body (R179). -/
def checkedBytes (kind seq : Byte) (body : List Byte) : List Byte :=
  bytes16 (body.length + 2) ++ [kind, seq] ++ body

/-- A whole frame: start byte, length, kind, sequence number, body, CRC. -/
def frameBytes (kind seq : Byte) (body : List Byte) : List Byte :=
  Config.startByte :: checkedBytes kind seq body ++ bytes16 (crc (checkedBytes kind seq body)).toNat

/-- The bytes of the frame that carries an item (R159). -/
def TxItem.bytes : TxItem → List Byte
  | .answer a => frameBytes a.kind a.seq a.body
  | .report seq content => frameBytes content.kind seq content.body

/-- The base-clock periods of a whole frame: ten bit periods a character, back to back (R149). -/
def TxItem.periods (item : TxItem) (rate : LinkRate) : Nat := item.bytes.length * 10 * rate.bitPeriod

/-- The ten bit levels of a character: start bit, data bits least significant first, stop bit (R149). -/
def characterBits (b : Byte) : List Bool :=
  false :: (List.range 8).map (fun k => b.getLsbD k) ++ [true]

/-- The level of TX: high at rest, else the bit of the frame on the line that its elapsed periods reach (R149). -/
def Link.txLevel (l : Link) : Bool :=
  match l.tx with
  | none => true
  | some f =>
    match (f.item.bytes.flatMap characterBits)[f.elapsed / l.rate.bitPeriod]? with
    | some level => level
    | none => true

end Sys2Proof.Machine
end

