-- ==== Sys2Proof/Machine/Ops.lean ====
section
/-! DEFINITION. The named operations over the state that the commands share: writing a place of a table, acting on a
line, the Due List, entry notices, the end of a series and of a life, serving a due time, catching up, entering HALTED.

All of them are total functions on plain data. -/

namespace Sys2Proof.Machine

/-! ### Writing a place -/

/-- Writes one place of the Entry Table. -/
def State.setEntry (s : State) (i : EntryIx) (e : Option Entry) : State :=
  { s with entries := s.entries.set i.val e }

/-- Writes one output line. -/
def State.setLine (s : State) (n : LineIx) (l : OutLine) : State :=
  { s with lines := s.lines.set n.val l }

/-- Writes one input channel. -/
def State.setChannel (s : State) (c : ChanIx) (ch : Channel) : State :=
  { s with channels := s.channels.set c.val ch }

/-- The same change to every channel. -/
def State.mapChannels (s : State) (f : Channel → Channel) : State :=
  { s with channels := s.channels.map f }

/-- Writes the Timebase. -/
def State.setTimebase (s : State) (t : Timebase) : State := { s with timebase := t }

/-- Writes the Due List. -/
def State.setDueList (s : State) (l : List EntryIx) : State := { s with dueList := l }

/-- Writes the Halt Unit. -/
def State.setHalt (s : State) (h : HaltUnit) : State := { s with halt := h }

/-- Writes the Report Queue. -/
def State.setReports (s : State) (q : ReportQueue) : State := { s with reports := q }

/-- Writes the Link Controller. -/
def State.setLink (s : State) (l : Link) : State := { s with link := l }

/-- Writes the queue of waiting commands. -/
def State.setPending (s : State) (l : List Instr) : State := { s with pending := l }

/-! ### Acting on a line (section 4.3) -/

/-- What reaches the Output Stage: SET, CLEAR or TOGGLE (R66). -/
inductive LevelAction
  | set
  | clear
  | toggle
  deriving DecidableEq, Repr

/-- The timed level after an action (R66). -/
def LevelAction.apply (a : LevelAction) (level : Bool) : Bool :=
  match a with
  | .set => true
  | .clear => false
  | .toggle => !level

/-- The leading action of a pulse, or the single action (R17). -/
def Action.leading : Action → LevelAction
  | .setLine => .set
  | .clearLine => .clear
  | .toggleLine => .toggle
  | .pulseHigh _ => .set
  | .pulseLow _ => .clear

/-- The trailing action of a pulse; none for a single action (R17). -/
def Action.trailing : Action → Option LevelAction
  | .pulseHigh _ => some .clear
  | .pulseLow _ => some .set
  | _ => none

/-- A timeline action is applied to the line's timed level (R66). -/
def State.act (s : State) (n : LineIx) (a : LevelAction) : State :=
  s.setLine n { s.line n with timed := a.apply (s.line n).timed }

/-- The trailing action of an entry's pulse, if it has one (R42). -/
def State.actTrailing (s : State) (p : Plan) : State :=
  match p.action.trailing with
  | some a => s.act p.line a
  | none => s

/-! ### The Due List (section 2.4) -/

/-- The due time of an entry, in PENDING and TRAILING. -/
def State.dueOf (s : State) (i : EntryIx) : Option Tick :=
  match s.entry i with
  | some e => e.progress.due
  | none => none

/-- The distance of an entry's due time (R23). -/
def State.dueDistance (s : State) (i : EntryIx) : Nat :=
  match s.dueOf i with
  | some t => distance s.now t
  | none => 0

/-- Puts an index behind every one whose distance is less than or equal to its own, and before the first greater
one (R24). -/
def insertDue (dist : EntryIx → Nat) (i : EntryIx) : List EntryIx → List EntryIx
  | [] => [i]
  | j :: rest => if dist j ≤ dist i then j :: insertDue dist i rest else i :: j :: rest

/-- The Due List without an index. -/
def State.unschedule (s : State) (i : EntryIx) : State :=
  s.setDueList (s.dueList.filter fun j => !(j == i))

/-- An entry takes its due time: it is removed from its place and inserted anew (R24). -/
def State.schedule (s : State) (i : EntryIx) : State :=
  s.setDueList (insertDue s.dueDistance i (s.dueList.filter fun j => !(j == i)))

/-- Gives a place of the table its new record, or none for FREE, and keeps the Due List: the entry is inserted anew when
it has a due time, and leaves the list otherwise (R23, R24). -/
def State.putEntry (s : State) (i : EntryIx) (e : Option Entry) : State :=
  if ((s.setEntry i e).dueOf i).isSome then (s.setEntry i e).schedule i else (s.setEntry i e).unschedule i

/-! ### Entry notices (section 3.4) -/

/-- The events of an entry that a notice counts (R53). -/
inductive EntryEvent
  | fired (late : Bool)
  | missed (number : Nat)
  | overrun
  deriving DecidableEq, Repr

/-- A notice in which nothing has been merged. -/
def EntryNotice.blank : EntryNotice := ⟨false, false, false, false, 0, 0, 0, 0, none, none⟩

/-- An event is merged into a notice (R53). -/
def EntryNotice.merge (n : EntryNotice) (ev : EntryEvent) (now : Tick) (remaining : Option Quantity) : EntryNotice :=
  match ev with
  | .fired late =>
    { n with
      fired := true, late := n.late || late, firedCount := satAdd n.firedCount 1, lastTick := now,
      remaining := remaining }
  | .missed k =>
    { n with missed := true, missedCount := satAdd n.missedCount k, lastTick := now, remaining := remaining }
  | .overrun =>
    { n with overrun := true, overrunCount := satAdd n.overrunCount 1, lastTick := now, remaining := remaining }

/-- An event is merged into a slot by the notify set: with EACH the slot is pending, with END alone collecting, with
neither nothing is merged (R52, R53). -/
def EntrySlot.merge (slot : EntrySlot) (p : Plan) (ev : EntryEvent) (now : Tick) (remaining : Option Quantity) :
    EntrySlot :=
  if p.each then .pending ((slot.notice.getD .blank).merge ev now remaining)
  else if p.final then .collecting ((slot.notice.getD .blank).merge ev now remaining)
  else slot

/-- An event of an entry is accounted in its slot. -/
def Entry.account (e : Entry) (ev : EntryEvent) (now : Tick) (remaining : Option Quantity) : Entry :=
  { e with slot := e.slot.merge e.plan ev now remaining }

/-- Misses counted together by one catch-up; no miss is no event (R53). -/
def Entry.accountMisses (e : Entry) (k : Nat) (now : Tick) (remaining : Option Quantity) : Entry :=
  if k = 0 then e else e.account (.missed k) now remaining

/-! ### The end of a series and of a life (section 3.2) -/

/-- The life of an entry ends: RETIRED with its final notice pending when the notify set has END, FREE otherwise
(R45, R54, R56). -/
def Entry.endLife (e : Entry) (outcome : FinalOutcome) (now : Tick) (remaining : Option Quantity) : Option Entry :=
  if e.plan.final then
    some { e with
      progress := .retired
      slot := .pending
        { (e.slot.notice.getD .blank) with outcome := some outcome, lastTick := now, remaining := remaining } }
  else none

/-- A series ends: an entry with arms left becomes WAITING, any other entry's life ends with remaining 0
(R44, R54). -/
def Entry.endSeries (e : Entry) (outcome : FinalOutcome) (now : Tick) : Option Entry :=
  if e.armed then some { e with progress := .waiting } else e.endLife outcome now (some (.number 0))

/-- After an occurrence: PENDING with the next due time while remaining is above 0 or UNLIMITED, else the series ends
(R40, R42, R83). -/
def Entry.goOn (e : Entry) (remaining : Quantity) (due : Option Tick) (outcome : FinalOutcome) (now : Tick) :
    Option Entry :=
  match remaining.positive, due with
  | true, some d => some { e with progress := .pending d remaining }
  | _, _ => e.endSeries outcome now

/-- The remaining that an event merges when the same step may end the series: absent when the entry is WAITING after it.
DEDUCED (log entry 10). -/
def Entry.eventRemaining (e : Entry) (remaining : Quantity) : Option Quantity :=
  if !remaining.positive && e.armed then none else some remaining

/-- The next leading due time on the grid (R19). -/
def Plan.nextDue (p : Plan) (lead : Tick) : Option Tick := p.rep.map fun r => lead + r.period

/-! ### Serving a due time (section 3.1, R83) -/

/-- The Timeline takes a PENDING entry while RUNNING: a single action, or the leading action of a pulse (R40, R41). -/
def State.fireDue (s : State) (i : EntryIx) (e : Entry) (due : Tick) (remaining : Quantity) : State :=
  let left := remaining.less 1
  let s' := s.act e.plan.line e.plan.action.leading
  match e.plan.action.width with
  | none =>
    let e' := e.account (.fired false) s.now (e.eventRemaining left)
    s'.putEntry i (e'.goOn left (e.plan.nextDue due) .done s.now)
  | some w =>
    let e' := e.account (.fired false) s.now (some left)
    s'.putEntry i (some { e' with progress := .trailing (due + w) due left false })

/-- The Timeline takes a PENDING entry while HALTED: the occurrence is missed (R83). -/
def State.missDue (s : State) (i : EntryIx) (e : Entry) (due : Tick) (remaining : Quantity) : State :=
  let left := remaining.less 1
  let e' := e.account (.missed 1) s.now (e.eventRemaining left)
  s.putEntry i (e'.goOn left (e.plan.nextDue due) .missed s.now)

/-- How a TRAILING entry goes on once its trailing action is performed or counted done (R42, R82). -/
def Entry.afterTrailing (e : Entry) (lead : Tick) (remaining : Quantity) (cancelled : Bool) (now : Tick) :
    Option Entry :=
  if cancelled then e.endLife .cancelled now (some remaining)
  else e.goOn remaining (e.plan.nextDue lead) .done now

/-- The Timeline deals with an entry it has taken from the Due List (R39). -/
def State.serveEntry (s : State) (i : EntryIx) : State :=
  match s.entry i with
  | some e =>
    match e.progress with
    | .pending due remaining => if s.halted then s.missDue i e due remaining else s.fireDue i e due remaining
    | .trailing _ lead remaining cancelled =>
      let s' := if s.halted then s else s.actTrailing e.plan
      s'.putEntry i (e.afterTrailing lead remaining cancelled s.now)
    | _ => s
  | none => s

/-- The due time of an entry is reached (R39). -/
def State.dueReached (s : State) (i : EntryIx) : Bool :=
  match s.dueOf i with
  | some t => reached s.now t
  | none => false

/-- The Timeline serves the Due List at one advance: it takes heads until one is not reached (R39). An entry it inserts
anew lies ahead, so the list's length at the advance bounds the number taken (log entry 11). -/
def State.serveDue : Nat → State → State
  | 0, s => s
  | n + 1, s =>
    match s.dueList with
    | [] => s
    | i :: _ => if s.dueReached i then State.serveDue n ((s.unschedule i).serveEntry i) else s

/-- One advance of the tick count, handed to the Timeline (R1, R39). -/
def State.advance (s : State) : State :=
  let s' := s.setTimebase { s.timebase with count := s.timebase.count + 1 }
  s'.serveDue s'.dueList.length

/-! ### Catching up a late start (R30 to R33, R49) -/

/-- The catch-up number k (R30, R49). -/
def Plan.catchUp (p : Plan) (back : Nat) : Nat :=
  match p.rep with
  | some r => back / r.period.toNat + 1
  | none => 1

/-- The occurrences counted by the catch-up: k, or the count when it is 1 or more and smaller (R31, R33, R49). -/
def Plan.counted (p : Plan) (k : Nat) : Nat :=
  match p.rep with
  | some r => if 1 ≤ r.count ∧ r.count < k then r.count else k
  | none => k

/-- The first grid point that is not reached: D + kP (R30). -/
def Plan.gridPoint (p : Plan) (start : Tick) (k : Nat) : Option Tick :=
  p.rep.map fun r => start + BitVec.ofNat 32 (k * r.period.toNat)

/-- A series whose first due time is already reached begins at once, the timeline RUNNING: the first occurrence is
performed, the skipped grid points are missed (R31, R32, R49). -/
def State.beginLate (s : State) (i : EntryIx) (e : Entry) (start : Tick) (late : Bool) : State :=
  let k := e.plan.catchUp (backDistance s.now start)
  let taken := e.plan.counted k
  let left := e.plan.firstRemaining.less taken
  let s' := s.act e.plan.line e.plan.action.leading
  let complete := fun s'' : State =>
    let e' := (e.account (.fired late) s.now (e.eventRemaining left)).accountMisses (taken - 1) s.now
      (e.eventRemaining left)
    s''.putEntry i (e'.goOn left (e.plan.gridPoint start k) (if taken = 1 then .done else .missed) s.now)
  match e.plan.action.width with
  | none => complete s'
  | some w =>
    if reached s.now (start + w) then complete (s'.actTrailing e.plan)
    else
      let e' := (e.account (.fired late) s.now (some left)).accountMisses (taken - 1) s.now (some left)
      s'.putEntry i (some { e' with progress := .trailing (start + w) start left false })

/-- A late start while HALTED: the first occurrence and the skipped grid points are missed (R33). -/
def State.beginMissed (s : State) (i : EntryIx) (e : Entry) (start : Tick) : State :=
  let k := e.plan.catchUp (backDistance s.now start)
  let taken := e.plan.counted k
  let left := e.plan.firstRemaining.less taken
  let e' := e.accountMisses taken s.now (e.eventRemaining left)
  s.putEntry i (e'.goOn left (e.plan.gridPoint start k) .missed s.now)

/-! ### Entering HALTED (section 5.4) -/

/-- The timed level of a TIMED line takes its safe level (R67). -/
def OutLine.forceSafe (l : OutLine) : OutLine :=
  match l.mode with
  | .timed => { l with timed := l.safe }
  | .direct => l

/-- The trailing action of a TRAILING entry is counted as done (R82). -/
def State.countTrailingDone (s : State) (i : EntryIx) : State :=
  match s.entry i with
  | some e =>
    match e.progress with
    | .trailing _ lead remaining cancelled => s.putEntry i (e.afterTrailing lead remaining cancelled s.now)
    | _ => s
  | none => s

/-- What the Output Stage and the Timeline do at the entry into HALTED (R67, R81, R82). -/
def State.enterHalted (s : State) : State :=
  let s' := { s with lines := s.lines.map OutLine.forceSafe }
  s'.dueList.foldl State.countTrailingDone s'

/-- The halt slot is opened, or extended if pending, with the causes an event adds (R87). -/
def HaltUnit.openSlot (h : HaltUnit) (added : Causes) : HaltUnit :=
  { h with slot := some ((h.slot.getD Causes.empty).union added) }

/-- A cause is added to the cause set: a cause already present changes nothing, the first cause makes the timeline enter
HALTED (R75, R81, R88). -/
def State.addCause (s : State) (c : Causes) : State :=
  if c.within s.halt.causes then s
  else
    let s' := s.setHalt ({ s.halt with causes := s.halt.causes.union c }.openSlot c)
    if s.halted then s' else s'.enterHalted

end Sys2Proof.Machine
end

