-- ==== Sys2Proof/Machine/LinkOps.lean ====
section
/-! DEFINITION. The operations of the Link Controller that every request shares: the transmitter's choice, the request
queue, the answer cache, the execution of one request frame. -/

namespace Sys2Proof.Machine

/-! ### The transmitter (section 9.5, R136) -/

/-- The report the queue offers: the oldest marked for resending, else the oldest unsent inside the window; nothing in
SILENT (R135, R136, R140). The answer is its place in the queue. -/
def ReportQueue.offered (q : ReportQueue) : Option Nat :=
  match q.state with
  | .silent => none
  | .flowing =>
    match q.reports.findIdx? fun r => r.sent && r.resend with
    | some k => some k
    | none =>
      match q.reports.findIdx? fun r => !r.sent with
      | some k => if k < Config.reportWindow then some k else none
      | none => none

/-- A report taken for a frame: sent, its resend mark clear, its frame on the line (R136). -/
def Report.taken (r : Report) : Report := { r with sent := true, resend := false, onLine := true }

/-- The queue when the transmitter takes its report at a place; taking the head stops the report timer (R137). -/
def ReportQueue.take (q : ReportQueue) (k : Nat) : ReportQueue :=
  { q with reports := q.reports.modify k Report.taken, timer := if k = 0 then none else q.timer }

/-- The transmitter, when IDLE, takes the answer waiting, else a report the queue offers (R161). -/
def State.transmitChoice (s : State) : State :=
  if s.hold.isSome || s.link.tx.isSome then s
  else
    match s.link.waiting with
    | some a => s.setLink { s.link with waiting := none, tx := some ⟨.answer a, 0⟩ }
    | none =>
      match s.reports.offered with
      | none => s
      | some k =>
        match s.reports.reports[k]? with
        | none => s
        | some r =>
          (s.setReports (s.reports.take k)).setLink { s.link with tx := some ⟨.report r.seq r.content, 0⟩ }

/-! ### Requests and answers (sections 9.4, 10.1) -/

/-- What an execution answers: a status and fields. -/
structure Reply where
  status : Status
  fields : AnswerFields
  deriving DecidableEq, Repr

/-- A request's execution at the block that owns it: from the body and the state, the reply and the new state. -/
abbrev Handler := List Byte → State → Reply × State

/-- A refused request changes nothing (R170); the answer is its status alone (R183). -/
def refuse (st : Status) (s : State) : Reply × State := (⟨st, .none⟩, s)

/-- An answer OK with fields. -/
def accept (fields : AnswerFields) (s : State) : Reply × State := (⟨.ok, fields⟩, s)

/-- The answer is stored; the one stored longest ago is dropped when the cache is full (R166). -/
def Link.store (l : Link) (a : Answer) : Link :=
  { l with cache := (if l.cache.length < Config.cachePlaces then l.cache else l.cache.tail) ++ [a] }

/-- The answer goes into the answer waiting (R160). -/
def Link.await (l : Link) (a : Answer) : Link := { l with waiting := some a }

/-- The answer of an executed request: kind + 0x80, the request's number, the reply (R159). -/
def Frame.answer (f : Frame) (r : Reply) : Answer := ⟨f.kind + 0x80, f.seq, r.status, r.fields⟩

/-- A frame taken from the request queue: a cached answer is sent again, else the request is executed and its answer
stored (R164, R165, R166). -/
def State.executeFrame (s : State) (h : Handler) (f : Frame) : State :=
  match s.link.cached f.seq with
  | some a => s.setLink (s.link.await a)
  | none =>
    let r := h f.body s
    r.2.setLink ((r.2.link.store (f.answer r.1)).await (f.answer r.1))

/-- The head frame of the request queue is taken and dealt with, and the transmitter chooses (R160, R161). -/
def State.takeHead (s : State) (h : Handler) (f : Frame) : State :=
  ((s.setLink { s.link with requests := s.link.requests.tail }).executeFrame h f).transmitChoice

/-- A good request frame is offered to the request queue: it joins the tail, or is an overrun when four stand there
(R158). -/
def State.offerFrame (s : State) (f : Frame) : State :=
  if s.link.requests.length < Config.requestPlaces then
    s.setLink { s.link with requests := s.link.requests ++ [f] }
  else s.setLink { s.link with overruns := satAdd s.link.overruns 1 }

/-- A frame that is no request frame: a framing error (R152, R156). -/
def State.framingError (s : State) : State := s.setLink { s.link with framing := satAdd s.link.framing 1 }

/-- The head frame can be taken, and it is this one. -/
def State.headIs (s : State) (f : Frame) : Bool :=
  s.canTake && decide (s.link.requests.head? = some f)

/-- The command that a request row is (log entry 4): the frame, unless it stands at the head of the request queue and can
be taken, arrives at the queue's tail; it is then taken and dealt with when it stands at the head and can be taken, and
waits in the queue otherwise. -/
def requestStep (h : Handler) (f : Frame) (s : State) : State :=
  if s.hold.isSome then s
  else if !isRequestKind f.kind || decide (Config.maxBody < f.body.length) then s.framingError
  else
    let s' := if s.headIs f then s else s.offerFrame f
    if s'.headIs f then s'.takeHead h f else s'

end Sys2Proof.Machine
end

