-- ==== Sys2Proof/Machine/Timeline.lean ====
section
/-! DEFINITION. The Timeline's requests (chapters 2 and 3) and the offering of trigger edges (section 3.3). -/

namespace Sys2Proof.Machine

/-! ### PLACE (section 2.5) -/

/-- The fields of a PLACE answer: the entry as it stands at the end of the execution (R35). -/
def State.placed (s : State) (i : EntryIx) (late : Bool) (missed : Nat) : AnswerFields :=
  .place i (entryState (s.entry i)) (s.dueOf i)
    (match s.entry i with
      | some e => e.progress.remaining
      | none => none)
    late missed

/-- The trigger channel of an ON start is OFF (R27). -/
def State.triggerOff (s : State) (p : Plan) : Bool :=
  match p.start with
  | .onTrigger c _ _ _ => decide ((s.channel c).setup.mode = .off)
  | _ => false

/-- An AT start that is reached with late policy REFUSE (R30). -/
def State.refusedLate (s : State) (p : Plan) : Bool :=
  match p.start with
  | .atTime t .refuse => reached s.now t
  | _ => false

/-- The record of a new entry: its slot empty, its arms left set (R21, R27). -/
def Plan.newEntry (p : Plan) (progress : Progress) : Entry :=
  ⟨p, progress, p.start.arms.map Quantity.ofLimit, .empty⟩

/-- A request that has passed the checks is placed at a FREE index (R28 to R34). -/
def State.placeAt (s : State) (i : EntryIx) (p : Plan) : Reply × State :=
  match p.start with
  | .onTrigger _ _ _ _ =>
    let s' := s.putEntry i (some (p.newEntry .waiting))
    accept (s'.placed i false 0) s'
  | .afterDelay d =>
    let s' := s.putEntry i (some (p.newEntry (.pending (s.now + d) p.firstRemaining)))
    accept (s'.placed i false 0) s'
  | .atTime t _ =>
    if reached s.now t then
      let taken := p.counted (p.catchUp (backDistance s.now t))
      if s.halted then
        let s' := s.beginMissed i (p.newEntry .waiting) t
        accept (s'.placed i false taken) s'
      else
        let s' := s.beginLate i (p.newEntry .waiting) t true
        accept (s'.placed i true (taken - 1)) s'
    else
      let s' := s.putEntry i (some (p.newEntry (.pending t p.firstRemaining)))
      accept (s'.placed i false 0) s'

/-- PLACE: the six checks of Table 2-3 in order, then the placement (R25). -/
def placeRequest : Handler := fun body s =>
  match readPlace body with
  | .error st => refuse st s
  | .ok p =>
    if (s.line p.line).mode = .direct then refuse .line s
    else if s.triggerOff p then refuse .state s
    else
      match s.lowestFree with
      | none => refuse .room s
      | some i => if s.refusedLate p then refuse .late s else s.placeAt i p

/-! ### Reading entries (section 2.6) -/

/-- ENTRY-QUERY (R36). -/
def entryQueryRequest : Handler := fun body s =>
  match readIndex body with
  | .error st => refuse st s
  | .ok i =>
    match s.entry i with
    | none => refuse .none s
    | some e => accept (.entryQuery i e) s

/-- An entry that is not FREE, as ENTRY-LIST lists it (R37). -/
def State.listed (s : State) (i : EntryIx) : Option ListedEntry :=
  match s.entry i with
  | some e => some ⟨i, e.progress.state, e.plan.tag, e.plan.line, e.progress.due⟩
  | none => none

/-- The entries ENTRY-LIST lists: at most 16 from the starting index upward (R37). -/
def State.listFrom (s : State) (start : EntryIx) : List ListedEntry :=
  (((List.finRange 64).drop start.val).filterMap s.listed).take Config.listLimit

/-- The continuation index: present when 16 were listed and the last of them is below 63 (R37). -/
def continuation (listed : List ListedEntry) : Option EntryIx :=
  if listed.length < Config.listLimit then none
  else
    match listed.getLast? with
    | some l => if h : l.index.val + 1 < 64 then some ⟨l.index.val + 1, h⟩ else none
    | none => none

/-- ENTRY-LIST (R37). -/
def entryListRequest : Handler := fun body s =>
  match readIndex body with
  | .error st => refuse st s
  | .ok i => accept (.entryList (s.listFrom i) (continuation (s.listFrom i))) s

/-! ### CANCEL and TIMELINE-CLEAR (sections 3.5, 3.6) -/

/-- A live entry that the selector names (R57, R58). -/
def State.matches (s : State) (sel : Selector) (i : EntryIx) : Bool :=
  match s.entry i with
  | none => false
  | some e =>
    e.progress.live &&
      match sel with
      | .index j => decide (i = j)
      | .tag t => decide (e.plan.tag = t)

/-- A matched entry is cancelled: at once when WAITING or PENDING (R59), by its cancel flag when TRAILING (R60).
DESIGN CHOICE (log entry 30): R59 has an entry cancelled from WAITING give up its arms left, and no rule gives the value
that Table 2-1's field then shows in RETIRED; it keeps the number it held. Unsafe. -/
def State.cancelEntry (s : State) (i : EntryIx) : State :=
  match s.entry i with
  | none => s
  | some e =>
    match e.progress with
    | .waiting => s.putEntry i (e.endLife .cancelled s.now none)
    | .pending _ remaining => s.putEntry i (e.endLife .cancelled s.now (some remaining))
    | .trailing due lead remaining _ => s.setEntry i (some { e with progress := .trailing due lead remaining true })
    | .retired => s

/-- CANCEL (R57 to R60). -/
def cancelRequest : Handler := fun body s =>
  match readCancel body with
  | .error st => refuse st s
  | .ok sel =>
    let matched := (List.finRange 64).filter (s.matches sel)
    let deferred := matched.countP fun i => decide (entryState (s.entry i) = .trailing)
    if matched.isEmpty then refuse .none s
    else accept (.cancel (matched.length - deferred) deferred) (matched.foldl State.cancelEntry s)

/-- The trailing action of a TRAILING entry, performed at once by TIMELINE-CLEAR (R62). -/
def State.clearTrailing (s : State) (i : EntryIx) : State :=
  match s.entry i with
  | some e => if e.progress.isTrailing && !s.halted then s.actTrailing e.plan else s
  | none => s

/-- TIMELINE-CLEAR (R61, R62). -/
def timelineClearRequest : Handler := fun body s =>
  match readEmpty body with
  | .error st => refuse st s
  | .ok _ =>
    let s' := s.dueList.foldl State.clearTrailing s
    accept (.count (64 - s.entriesIn .free))
      { s' with entries := Vector.replicate 64 none, dueList := [] }

/-! ### Trigger edges (section 3.3) -/

/-- The trigger sense matches the direction of an edge (R47). -/
def TriggerSense.accepts (sense : TriggerSense) (edge : Edge) : Bool :=
  match sense, edge with
  | .any, _ => true
  | .rise, .rise => true
  | .fall, .fall => true
  | _, _ => false

/-- An arm is used (R48, R50). -/
def Entry.useArm (e : Entry) : Entry := { e with armsLeft := e.armsLeft.map fun q => q.less 1 }

/-- A WAITING entry is served: its series is due at stamp plus delay, or begins late (R48, R49). -/
def State.serveTrigger (s : State) (i : EntryIx) (e : Entry) (delay stamp : Tick) : State :=
  let start := stamp + delay
  if reached s.now start then s.beginLate i e.useArm start (decide (0 < delay.toNat))
  else s.putEntry i (some { e.useArm with progress := .pending start e.plan.firstRemaining })

/-- A WAITING entry misses the trigger while HALTED (R50). -/
def State.missTrigger (s : State) (i : EntryIx) (e : Entry) : State :=
  let e' := e.useArm.account (.missed 1) s.now none
  if e'.armed then s.setEntry i (some e') else s.putEntry i (e'.endLife .missed s.now none)

/-- An edge is offered to one entry (R47). -/
def State.offerEdge (c : ChanIx) (edge : Edge) (stamp : Tick) (s : State) (i : EntryIx) : State :=
  match s.entry i with
  | none => s
  | some e =>
    match e.plan.start with
    | .onTrigger ch sense delay _ =>
      if ch = c ∧ sense.accepts edge = true then
        match e.progress with
        | .waiting => if s.halted then s.missTrigger i e else s.serveTrigger i e delay stamp
        | .pending _ remaining => s.setEntry i (some (e.account .overrun s.now (some remaining)))
        | .trailing _ _ remaining _ => s.setEntry i (some (e.account .overrun s.now (some remaining)))
        | .retired => s
      else s
    | _ => s

/-- An accepted edge is offered to the entries in index order, lowest first, while the timebase is RUNNING
(R13, R47). -/
def State.offerTrigger (s : State) (c : ChanIx) (edge : Edge) (stamp : Tick) : State :=
  if s.running then (List.finRange 64).foldl (State.offerEdge c edge stamp) s else s

/-! ### The commands -/

/-- PLACE. -/
def execPlace (seq : Byte) (body : List Byte) (s : State) : Host.Outcome State Fault Refusal :=
  .next (requestStep placeRequest ⟨RequestKind.place.code, seq, body⟩ s)

/-- ENTRY_QUERY. -/
def execEntryQuery (seq : Byte) (body : List Byte) (s : State) : Host.Outcome State Fault Refusal :=
  .next (requestStep entryQueryRequest ⟨RequestKind.entryQuery.code, seq, body⟩ s)

/-- ENTRY_LIST. -/
def execEntryList (seq : Byte) (body : List Byte) (s : State) : Host.Outcome State Fault Refusal :=
  .next (requestStep entryListRequest ⟨RequestKind.entryList.code, seq, body⟩ s)

/-- CANCEL. -/
def execCancel (seq : Byte) (body : List Byte) (s : State) : Host.Outcome State Fault Refusal :=
  .next (requestStep cancelRequest ⟨RequestKind.cancel.code, seq, body⟩ s)

/-- TIMELINE_CLEAR. -/
def execTimelineClear (seq : Byte) (body : List Byte) (s : State) : Host.Outcome State Fault Refusal :=
  .next (requestStep timelineClearRequest ⟨RequestKind.timelineClear.code, seq, body⟩ s)

end Sys2Proof.Machine
end

