-- ==== Sys2Proof/Machine/Channels.lean ====
section
/-! DEFINITION. The Input Channels' requests and the events of the input lines (chapter 6), with the taking and losing of
capture records (section 7.3). -/

namespace Sys2Proof.Machine

/-! ### CHANNEL-SETUP and CHANNEL-QUERY (sections 6.7, 6.8, 7.8) -/

/-- CHANNEL-SETUP is answered STATE: the quota is below the held count, or the mode is OFF while an entry could wait on
the channel (R103). -/
def State.setupHeld (s : State) (c : ChanIx) (new : ChannelSetup) : Bool :=
  decide (new.quota < s.heldCount c) || (decide (new.mode = .off) && s.channelHeld c)

/-- The filter changes while a window is open: the window is abandoned (R104). -/
def Channel.abandons (ch : Channel) (new : ChannelSetup) : Bool :=
  decide (new.filter ≠ ch.setup.filter) && ch.window.isSome

/-- The linger timer under a new setup (R125). -/
def Channel.lingerUnder (ch : Channel) (new : ChannelSetup) : Option Nat :=
  if new.linger = ch.setup.linger then ch.lingerTimer
  else if new.linger ≠ 0 ∧ ch.unreported ≠ [] then startTimer new.linger
  else none

/-- A channel takes a new setup (R104, R125). -/
def Channel.withSetup (ch : Channel) (new : ChannelSetup) : Channel :=
  { ch with
    setup := new
    window := if ch.abandons new then none else ch.window
    reference := none
    lingerTimer := ch.lingerUnder new
    lingerDue := if new.linger = ch.setup.linger then ch.lingerDue else false }

/-- CHANNEL-SETUP (R102 to R104, R125). -/
def channelSetupRequest : Handler := fun body s =>
  match readChannelSetup body with
  | .error st => refuse st s
  | .ok (c, new) =>
    if s.setupHeld c new then refuse .state s
    else
      accept (.channelSetup new (s.channel c).filtered ((s.channel c).abandons new))
        (s.setChannel c ((s.channel c).withSetup new))

/-- The fields of a CHANNEL-QUERY answer (R105, R126). -/
def State.channelView (s : State) (c : ChanIx) : ChannelView where
  setup := (s.channel c).setup
  raw := (s.channel c).raw
  filtered := (s.channel c).filtered
  windowStamp := (s.channel c).window.map Window.stamp
  referencePresent := (s.channel c).reference.isSome
  glitches := (s.channel c).glitches
  level := (s.channel c).level
  held := s.heldCount c
  unreported := (s.channel c).unreported.length
  lost := (s.channel c).lost
  flushFlag := (s.channel c).flushFlag

/-- CHANNEL-QUERY; the clear flag sets the glitch count to 0 after the answer is formed (R105). -/
def channelQueryRequest : Handler := fun body s =>
  match readChannelQuery body with
  | .error st => refuse st s
  | .ok (c, clear) =>
    accept (.channelQuery (s.channelView c))
      (if clear then s.setChannel c { s.channel c with glitches := 0 } else s)

/-! ### Taking and losing records (section 7.3) -/

/-- A taken record joins the tail of the list with the loss mark as its after-loss flag; the linger timer starts when the
list was empty (R111, R113, R116). -/
def Channel.take (ch : Channel) (r : Record) : Channel :=
  { ch with
    unreported := ch.unreported ++ [{ r with afterLoss := ch.lossMark }]
    lossMark := false
    lingerTimer :=
      if ch.unreported = [] ∧ ch.setup.linger ≠ 0 then startTimer ch.setup.linger else ch.lingerTimer }

/-- A lost edge (R112). -/
def Channel.lose (ch : Channel) : Channel := { ch with lost := satAdd ch.lost 1, lossMark := true }

/-- The journal takes a selected edge when a place is free and the channel is below its quota, and loses it otherwise
(R111, R112). -/
def State.journal (s : State) (c : ChanIx) (r : Record) : State :=
  if 0 < s.freePlaces ∧ s.heldCount c < (s.channel c).setup.quota then s.setChannel c ((s.channel c).take r)
  else s.setChannel c (s.channel c).lose

/-! ### Accepted edges (sections 6.2 to 6.5) -/

/-- The capture sense selects the direction (R96). -/
def CaptureSense.selects (sense : CaptureSense) (edge : Edge) : Bool :=
  match sense, edge with
  | .both, _ => true
  | .rise, .rise => true
  | .fall, .fall => true
  | _, _ => false

/-- The interval of a selected edge: present when the setting is on and the reference present (R97). -/
def Channel.intervalAt (ch : Channel) (stamp : Tick) : Option Tick :=
  if ch.setup.interval then ch.reference.map fun ref => stamp - ref else none

/-- A selected edge: the record is handed to the journal and the reference takes the stamp (R96, R97).

DESIGN CHOICE (log entry 34): this holds as well of an edge whose window opened before a TIME-SET or a TIME-STOP and is
accepted after the TIME-RUN. Its stamp is the count before the load or the stop (R10), and the next interval is measured from
it, as R97's mechanism has it, though R7 and R97 also say that no interval spans a load or a stopped period. -/
def State.captureEdge (s : State) (c : ChanIx) (edge : Edge) (stamp : Tick) : State :=
  let ch := s.channel c
  (s.setChannel c { ch with reference := some stamp }).journal c ⟨edge, stamp, ch.intervalAt stamp, false⟩

/-- A watched edge is merged into the level notice slot (R98). -/
def Channel.watchEdge (ch : Channel) (stamp : Tick) : Channel :=
  { ch with
    level :=
      match ch.level with
      | none => some ⟨1, stamp, stamp⟩
      | some n => some { n with changes := satAdd n.changes 1, last := stamp } }

/-- An accepted edge goes to the destinations of Table 6-2 (R95). -/
def State.distribute (s : State) (c : ChanIx) (edge : Edge) (stamp : Tick) : State :=
  match (s.channel c).setup.mode with
  | .off => s
  | .capture =>
    if s.running then
      (if (s.channel c).setup.sense.selects edge then s.captureEdge c edge stamp else s).offerTrigger c edge stamp
    else s
  | .watch => (s.setChannel c ((s.channel c).watchEdge stamp)).offerTrigger c edge stamp

/-- The edge to a level (R93). -/
def edgeTo (level : Bool) : Edge := if level then .rise else .fall

/-- An edge is accepted: the filtered level takes the new level, the window closes, the edge is distributed (R91). -/
def State.acceptEdge (s : State) (c : ChanIx) (stamp : Tick) : State :=
  let ch := s.channel c
  (s.setChannel c { ch with filtered := !ch.filtered, window := none }).distribute c (edgeTo (!ch.filtered)) stamp

/-- A raw transition opens the window with the count as its stamp; with a filter of 0 the edge is accepted at once
(R91). -/
def State.rawTransition (s : State) (c : ChanIx) : State :=
  let ch := s.channel c
  let s' := s.setChannel c { ch with raw := !ch.filtered, window := some ⟨s.now, 0⟩ }
  if ch.setup.filter = 0 then s'.acceptEdge c s.now else s'

/-- A window closed by a sample equal to the filtered level: a glitch (R92). -/
def Channel.glitch (ch : Channel) : Channel :=
  { ch with raw := ch.filtered, window := none, glitches := satAdd ch.glitches 1 }

/-! ### The commands -/

/-- CHANNEL_SETUP. -/
def execChannelSetup (seq : Byte) (body : List Byte) (s : State) : Host.Outcome State Fault Refusal :=
  .next (requestStep channelSetupRequest ⟨RequestKind.channelSetup.code, seq, body⟩ s)

/-- CHANNEL_QUERY. -/
def execChannelQuery (seq : Byte) (body : List Byte) (s : State) : Host.Outcome State Fault Refusal :=
  .next (requestStep channelQueryRequest ⟨RequestKind.channelQuery.code, seq, body⟩ s)

/-- RAW_TRANSITION: with the window closed, the line leaves the filtered level (R91). -/
def execRawTransition (c : ChanIx) (s : State) : Host.Outcome State Fault Refusal :=
  .next (if s.hold.isSome || (s.channel c).window.isSome then s else s.rawTransition c)

/-- The line returns to the filtered level with the window closed, as it can after an abandonment (R104): nothing is
counted, for a glitch is a window closed by the sample (R92). -/
def Channel.settle (ch : Channel) : Channel := { ch with raw := ch.filtered }

/-- GLITCH: the line returns to the filtered level. With the window open that is the glitch of R92. With the window closed,
where an abandonment has left the line away from the filtered level (R104), the line alone returns (log entry 33). -/
def execGlitch (c : ChanIx) (s : State) : Host.Outcome State Fault Refusal :=
  .next (if (s.channel c).window.isSome then s.setChannel c (s.channel c).glitch
    else if s.hold.isSome then s
    else s.setChannel c (s.channel c).settle)

/-- EDGE_ACCEPTED: the window has stayed open for the filter time (R91). -/
def execEdgeAccepted (c : ChanIx) (s : State) : Host.Outcome State Fault Refusal :=
  .next (match (s.channel c).window with
    | some w => (s.setChannel c { s.channel c with raw := !(s.channel c).filtered }).acceptEdge c w.stamp
    | none => s)

end Sys2Proof.Machine
end

