-- ==== Sys2Proof/Machine/Halting.lean ====
section
/-! DEFINITION. The Halt Unit's requests and the events of the STOP line (chapter 5). -/

namespace Sys2Proof.Machine

/-- HALT adds REQUEST (R79). -/
def haltRequest : Handler := fun body s =>
  match readEmpty body with
  | .error st => refuse st s
  | .ok _ =>
    let s' := s.addCause Causes.ofRequest
    accept (.halt s'.halted s'.halt.causes) s'

/-- STOP_LINE in the set with the line active, or SILENCE in the set with the report state SILENT, holds the halt
(R85). -/
def State.resumeHeld (s : State) : Bool :=
  (s.halt.causes.stopLine && s.halt.stopIsActive) ||
    (s.halt.causes.silence && decide (s.reports.state = .silent))

/-- The fields of both answers of RESUME (R85). -/
def State.resumeFields (s : State) : AnswerFields := .resume s.halted s.halt.causes s.halt.stopFiltered

/-- RESUME clears the cause set, or is refused (R85, R86). -/
def resumeRequest : Handler := fun body s =>
  match readEmpty body with
  | .error st => refuse st s
  | .ok _ =>
    if s.halted then
      if s.resumeHeld then (⟨.state, s.resumeFields⟩, s)
      else
        let s' := s.setHalt ({ s.halt with causes := Causes.empty }.openSlot Causes.empty)
        accept s'.resumeFields s'
    else accept s.resumeFields s

/-- STOP-SETUP stores the setup and tests the STOP line under it (R78). -/
def stopSetupRequest : Handler := fun body s =>
  match readStopSetup body with
  | .error st => refuse st s
  | .ok (enable, active) =>
    let s' := s.setHalt { s.halt with stopEnable := enable, stopActive := active }
    let s'' := if s'.halt.stopIsActive then s'.addCause Causes.ofStopLine else s'
    accept
      (.stopSetup s''.halt.stopEnable s''.halt.stopActive s''.halt.stopFiltered s''.halted s''.halt.causes) s''

/-- The STOP filter accepts the other level: the filtered level changes and the window closes; with the line enabled, an
activation adds STOP_LINE, and every change opens or extends the halt slot (R76, R77, R88). -/
def State.acceptStop (s : State) : State :=
  let s' := s.setHalt { s.halt with stopFiltered := !s.halt.stopFiltered, stopWindow := none }
  if s'.halt.stopEnable then
    let s'' := if s'.halt.stopIsActive then s'.addCause Causes.ofStopLine else s'
    s''.setHalt (s''.halt.openSlot Causes.empty)
  else s'

/-- A STOP sample that differs from the filtered level opens the window (R76). -/
def State.openStopWindow (s : State) : State :=
  s.setHalt { s.halt with stopRaw := !s.halt.stopFiltered, stopWindow := some 0 }

/-- A STOP sample equal to the filtered level closes the window; nothing is counted (R76). -/
def State.stopReturns (s : State) : State :=
  s.setHalt { s.halt with stopRaw := s.halt.stopFiltered, stopWindow := none }

/-- HALT. -/
def execHalt (seq : Byte) (body : List Byte) (s : State) : Host.Outcome State Fault Refusal :=
  .next (requestStep haltRequest ⟨RequestKind.halt.code, seq, body⟩ s)

/-- RESUME. -/
def execResume (seq : Byte) (body : List Byte) (s : State) : Host.Outcome State Fault Refusal :=
  .next (requestStep resumeRequest ⟨RequestKind.resume.code, seq, body⟩ s)

/-- STOP_SETUP. -/
def execStopSetup (seq : Byte) (body : List Byte) (s : State) : Host.Outcome State Fault Refusal :=
  .next (requestStep stopSetupRequest ⟨RequestKind.stopSetup.code, seq, body⟩ s)

/-- STOP_WINDOW_OPEN: with the window closed, the pin leaves the filtered level (R76). -/
def execStopWindowOpen (s : State) : Host.Outcome State Fault Refusal :=
  .next (if s.hold.isSome || s.halt.stopWindow.isSome then s else s.openStopWindow)

/-- STOP_GLITCH: with the window open, the pin returns to the filtered level (R76). -/
def execStopGlitch (s : State) : Host.Outcome State Fault Refusal :=
  .next (if s.halt.stopWindow.isSome then s.stopReturns else s)

/-- STOP_LEVEL_ACCEPTED: the window has stayed open for 10 us (R76, R77). -/
def execStopLevelAccepted (s : State) : Host.Outcome State Fault Refusal :=
  .next (if s.halt.stopWindow.isSome then
    (s.setHalt { s.halt with stopRaw := !s.halt.stopFiltered }).acceptStop else s)

end Sys2Proof.Machine
end

