-- ==== Sys2Proof/Machine/Reset.lean ====
section
/-! DEFINITION. The device reset: its three beginnings, its end, and RESTART (sections 10.5, 10.6). -/

namespace Sys2Proof.Machine

/-- A device reset begins: every block takes its reset values and the reset holds with its cause (R176, R177). The pins
keep their levels, and the queue of commands is not the part's. -/
def State.beginReset (s : State) (cause : ResetCause) : State where
  timebase := Timebase.afterReset s.timebase.cntRaw
  entries := Vector.replicate 64 none
  dueList := []
  lines := Vector.replicate 16 OutLine.afterReset
  halt := HaltUnit.afterReset s.halt.stopRaw
  channels := Vector.ofFn fun c : ChanIx => Channel.afterReset (s.channel c).raw
  reports := ReportQueue.afterReset
  link := Link.afterReset s.link.rate1 s.link.rate0 s.link.rxRaw
  hold := some ⟨cause, 0⟩
  pending := s.pending

/-- Every block at its reset values, the pins sampled, START admitted (R178). -/
def State.afterReset (s : State) (cause : ResetCause) : State where
  timebase := Timebase.afterReset s.timebase.cntRaw
  entries := Vector.replicate 64 none
  dueList := []
  lines := Vector.replicate 16 OutLine.afterReset
  halt := HaltUnit.afterReset s.halt.stopRaw
  channels := Vector.ofFn fun c : ChanIx => Channel.afterReset (s.channel c).raw
  reports := ReportQueue.withStart cause (LinkRate.ofPins s.link.rate1 s.link.rate0)
  link := Link.afterReset s.link.rate1 s.link.rate0 s.link.rxRaw
  hold := none
  pending := s.pending

/-- A device reset ends: the STOP line is tested under the reset setup, and START is offered to the idle transmitter
(R89, R178). -/
def State.endReset (s : State) (cause : ResetCause) : State :=
  let s' := s.afterReset cause
  (if s'.halt.stopIsActive then s'.addCause Causes.ofStopLine else s').transmitChoice

/-- The levels of the pins. -/
def State.withPins (s : State) (rate1 rate0 stop : Bool) (inputs : Levels) : State :=
  { s with
    link := { s.link with rate1 := rate1, rate0 := rate0 }
    halt := { s.halt with stopRaw := stop }
    channels := Vector.ofFn fun c : ChanIx => { s.channel c with raw := inputs.getLsbD c.val } }

/-- RESTART: answered OK, and from then on no further frame is taken (R175). -/
def restartRequest : Handler := fun body s =>
  match readEmpty body with
  | .error st => refuse st s
  | .ok _ => accept .none (s.setLink { s.link with restartTaken := true })

/-- RESTART. -/
def execRestart (seq : Byte) (body : List Byte) (s : State) : Host.Outcome State Fault Refusal :=
  .next (requestStep restartRequest ⟨RequestKind.restart.code, seq, body⟩ s)

/-- POWER_ON: the supply comes up, and the part is held in reset with the cause POWER (R177). -/
def execPowerOn (s : State) : Host.Outcome State Fault Refusal := .next (s.beginReset .power)

/-- RESET_PIN: the pin becomes active, and the part is held in reset with the cause PIN; a power-on reset that still holds
keeps the cause POWER (R177, log entry 7). -/
def execResetPin (s : State) : Host.Outcome State Fault Refusal :=
  .next (match s.hold with
    | some h => if h.cause = .power then s else s.beginReset .pin
    | none => s.beginReset .pin)

/-- RESET_END: the reset that holds ends, with the RATE pins, STOP and the input lines at the given levels (R178). With
no reset holding there is none to end. -/
def execResetEnd (rate1 rate0 stop : Bool) (inputs : Levels) (s : State) : Host.Outcome State Fault Refusal :=
  .next (match s.hold with
    | some h => (s.withPins rate1 rate0 stop inputs).endReset h.cause
    | none => s)

end Sys2Proof.Machine
end

