-- ==== Sys2Proof/Machine/Link.lean ====
section
/-! DEFINITION. The Link Controller's own requests HELLO and STATUS, the receiver and the end of a frame on TX
(chapters 9 and 10). -/

namespace Sys2Proof.Machine

/-! ### HELLO and STATUS (sections 10.3, 10.4) -/

/-- HELLO (R172). -/
def helloRequest : Handler := fun body s =>
  match readEmpty body with
  | .error st => refuse st s
  | .ok _ => accept (.hello s.link.rate) s

/-- The fields of a STATUS answer, read at one moment (R173). -/
def State.statusView (s : State) : StatusView where
  count := s.now
  timebase := s.timebase.state
  source := s.timebase.source
  halted := s.halted
  causes := s.halt.causes
  stopEnable := s.halt.stopEnable
  stopFiltered := s.halt.stopFiltered
  free := s.entriesIn .free
  waiting := s.entriesIn .waiting
  pending := s.entriesIn .pending
  trailing := s.entriesIn .trailing
  retired := s.entriesIn .retired
  freePlaces := s.freePlaces
  reportState := s.reports.state
  reportsQueued := s.reports.reports.length
  reportsSent := s.reports.sentCount
  retries := s.reports.retries
  nextSeq := s.reports.nextSeq
  framing := s.link.framing
  gapAborts := s.link.gapAborts
  crcErrors := s.link.crcErrors
  overruns := s.link.overruns
  requestsQueued := s.link.requests.length

/-- The four link error counters at 0 (R174). -/
def Link.clearErrors (l : Link) : Link := { l with framing := 0, gapAborts := 0, crcErrors := 0, overruns := 0 }

/-- STATUS; the clear flag clears the link error counters after the answer is formed (R173, R174). -/
def statusRequest : Handler := fun body s =>
  match readStatus body with
  | .error st => refuse st s
  | .ok clear => accept (.status s.statusView) (if clear then s.setLink s.link.clearErrors else s)

/-- A request kind that names no request is answered UNKNOWN; the body is not examined (R168). -/
def unknownRequest : Handler := fun _ s => refuse .unknown s

/-! ### The receiver (section 9.2) -/

/-- The receiver in a new state with the gap timer started afresh (R155). -/
def Link.receive (l : Link) (r : Receiver) : Link := { l with receiver := r, gapTimer := startTimer Config.gapMs }

/-- The receiver back in HUNT, its partial frame gone, the gap timer stopped (R151, R155). -/
def Link.toHunt (l : Link) : Link := { l with receiver := .hunt, gapTimer := none }

/-- A frame is rejected as a framing error (R152, R154). -/
def State.rejectFraming (s : State) : State := (s.setLink s.link.toHunt).framingError

/-- A complete frame: its CRC is checked, and a good frame is disposed of by its kind (R153, R156). -/
def State.completeFrame (s : State) (low high : Byte) (content : List Byte) (crcLow crcHigh : Byte) : State :=
  let s' := s.setLink s.link.toHunt
  if crc (low :: high :: content) = tag16 crcLow crcHigh then
    match content with
    | kind :: seq :: body => if isRequestKind kind then s'.offerFrame ⟨kind, seq, body⟩ else s'.framingError
    | _ => s'.framingError
  else s'.setLink { s'.link with crcErrors := satAdd s'.link.crcErrors 1 }

/-- A character arrives on RX: Table 9-2 (R151 to R154). -/
def State.receive (s : State) (value : Byte) (stopBit : Bool) : State :=
  match s.link.receiver with
  | .hunt => if stopBit && value == Config.startByte then s.setLink (s.link.receive (.length [])) else s
  | .length taken =>
    if stopBit then
      match taken with
      | [] => s.setLink (s.link.receive (.length [value]))
      | low :: _ =>
        if Config.minLength ≤ number16 low value ∧ number16 low value ≤ Config.maxLength then
          s.setLink (s.link.receive (.body low value (number16 low value) []))
        else s.rejectFraming
    else s.rejectFraming
  | .body low high left taken =>
    if stopBit then
      if left ≤ 1 then s.setLink (s.link.receive (.check low high (taken ++ [value]) []))
      else s.setLink (s.link.receive (.body low high (left - 1) (taken ++ [value])))
    else s.rejectFraming
  | .check low high content crcBytes =>
    if stopBit then
      match crcBytes with
      | [] => s.setLink (s.link.receive (.check low high content [value]))
      | crcLow :: _ => s.completeFrame low high content crcLow value
    else s.rejectFraming

/-- The gap timer expires inside a frame: the frame is aborted (R155). -/
def State.gapAbort (s : State) : State :=
  s.setLink { s.link.toHunt with gapAborts := satAdd s.link.gapAborts 1 }

/-! ### The end of a frame on TX (sections 9.5, 8.4) -/

/-- The report timer starts at the end of a frame that carries the head report, in FLOWING (R137); no report is on the
line any more. -/
def ReportQueue.frameEnded (q : ReportQueue) : ReportQueue :=
  { q with
    reports := q.reports.map fun r => { r with onLine := false }
    timer :=
      match q.reports, q.state with
      | r :: _, .flowing => if r.onLine then startTimer q.timeout else q.timer
      | _, _ => q.timer }

/-- The frame on the line is the answer of an executed RESTART (R162, R176). -/
def Link.restartFrame (l : Link) (item : TxItem) : Bool :=
  match item with
  | .answer a => l.restartTaken && a.kind == RequestKind.restart.code + 0x80 && decide (a.status = .ok)
  | .report _ _ => false

/-- The frame on the line ends: the end of a RESTART's answer begins the device reset (R176); after any other the
transmitter chooses its next frame (R159, R161). -/
def State.frameEnds (s : State) : State :=
  match s.link.tx with
  | none => s.transmitChoice
  | some f =>
    if s.link.restartFrame f.item then s.beginReset .restart
    else
      let s' := s.setLink { s.link with tx := none }
      (match f.item with
        | .answer _ => s'
        | .report _ _ => s'.setReports s'.reports.frameEnded).transmitChoice

/-! ### The commands -/

/-- HELLO. -/
def execHello (seq : Byte) (body : List Byte) (s : State) : Host.Outcome State Fault Refusal :=
  .next (requestStep helloRequest ⟨RequestKind.hello.code, seq, body⟩ s)

/-- STATUS. -/
def execStatus (seq : Byte) (body : List Byte) (s : State) : Host.Outcome State Fault Refusal :=
  .next (requestStep statusRequest ⟨RequestKind.status.code, seq, body⟩ s)

/-- RX_CHARACTER; while a device reset holds the receiver takes no character (R150, R177). -/
def execRxCharacter (value : Byte) (stopBit : Bool) (s : State) : Host.Outcome State Fault Refusal :=
  .next (if s.hold.isSome then s else s.receive value stopBit)

/-- GAP_ABORT: the gap timer expires in LENGTH, BODY or CHECK; it does not run in HUNT (R155). -/
def execGapAbort (s : State) : Host.Outcome State Fault Refusal :=
  .next (if s.link.receiver = .hunt then s else s.gapAbort)

/-- TX_FRAME_END: the last stop bit of the frame on the line has left TX (R159). -/
def execTxFrameEnd (s : State) : Host.Outcome State Fault Refusal := .next s.frameEnds

end Sys2Proof.Machine
end

