-- ==== Sys2Proof/Machine/Output.lean ====
section
/-! DEFINITION. The Output Stage's requests (chapter 4). -/

namespace Sys2Proof.Machine

/-- The new safe level is stored; while HALTED a TIMED line's timed level takes it as well (R70). -/
def OutLine.withSafe (l : OutLine) (safe halted : Bool) : OutLine :=
  if halted then ({ l with safe := safe } : OutLine).forceSafe else { l with safe := safe }

/-- The mode is applied after the safe level: the new master's level takes the driven level (R70). -/
def OutLine.withMode (l : OutLine) (mode : LineMode) (halted : Bool) : OutLine :=
  match l.mode, mode with
  | .direct, .timed => { l with mode := .timed, timed := l.driven halted }
  | .timed, .direct => { l with mode := .direct, direct := l.driven halted }
  | _, _ => l

/-- LINE-SETUP (R69, R70). -/
def lineSetupRequest : Handler := fun body s =>
  match readLineSetup body with
  | .error st => refuse st s
  | .ok (n, mode, safe) =>
    if mode = .direct ∧ (s.line n).mode = .timed ∧ s.lineHeld n = true then refuse .state s
    else
      let l := ((s.line n).withSafe safe s.halted).withMode mode s.halted
      accept (.lineSetup l.mode l.safe (l.driven s.halted)) (s.setLine n l)

/-- The mask names a TIMED line (R72). -/
def State.maskTimed (s : State) (mask : Levels) : Bool :=
  (List.finRange 16).any fun n => mask.getLsbD n.val && decide ((s.line n).mode = .timed)

/-- Each line of the mask takes its value as direct level; the others stay (R72). -/
def State.writeDirect (s : State) (mask values : Levels) : State :=
  { s with
    lines := Vector.ofFn fun n : LineIx =>
      if mask.getLsbD n.val then { s.line n with direct := values.getLsbD n.val } else s.line n }

/-- LINE-WRITE (R72). -/
def lineWriteRequest : Handler := fun body s =>
  match readLineWrite body with
  | .error st => refuse st s
  | .ok (mask, values) =>
    if s.halted then refuse .halted s
    else if s.maskTimed mask then refuse .line s
    else accept (.lineWrite (s.writeDirect mask values).drivenLevels) (s.writeDirect mask values)

/-- The levels LINES-READ reports (R73). A mode is reported as its code, TIMED set (log entry 9). -/
def State.linesView (s : State) : LinesView where
  rawInputs := levelsOf fun c => (s.channel c).raw
  filteredInputs := levelsOf fun c => (s.channel c).filtered
  driven := s.drivenLevels
  modes := levelsOf fun n => decide ((s.line n).mode = .timed)
  safe := levelsOf fun n => (s.line n).safe
  direct := levelsOf fun n => (s.line n).direct
  timed := levelsOf fun n => (s.line n).timed
  halted := s.halted

/-- LINES-READ (R73). -/
def linesReadRequest : Handler := fun body s =>
  match readEmpty body with
  | .error st => refuse st s
  | .ok _ => accept (.linesRead s.linesView) s

/-- LINE_SETUP. -/
def execLineSetup (seq : Byte) (body : List Byte) (s : State) : Host.Outcome State Fault Refusal :=
  .next (requestStep lineSetupRequest ⟨RequestKind.lineSetup.code, seq, body⟩ s)

/-- LINE_WRITE. -/
def execLineWrite (seq : Byte) (body : List Byte) (s : State) : Host.Outcome State Fault Refusal :=
  .next (requestStep lineWriteRequest ⟨RequestKind.lineWrite.code, seq, body⟩ s)

/-- LINES_READ. -/
def execLinesRead (seq : Byte) (body : List Byte) (s : State) : Host.Outcome State Fault Refusal :=
  .next (requestStep linesReadRequest ⟨RequestKind.linesRead.code, seq, body⟩ s)

end Sys2Proof.Machine
end

