-- ==== Sys2Proof/Machine/Journal.lean ====
section
/-! DEFINITION. The Capture Journal's request and timer (sections 7.4, 7.5), the forming, the release and the return of
batches (sections 7.6, 7.7). -/

namespace Sys2Proof.Machine

/-- The channel has unreported records or a lost count above 0 (R117). -/
def Channel.flushable (ch : Channel) : Bool := !ch.unreported.isEmpty || decide (0 < ch.lost)

/-- FLUSH sets the flush flag of a named channel that has something to send (R117). -/
def Channel.flush (ch : Channel) : Channel := if ch.flushable then { ch with flushFlag := true } else ch

/-- FLUSH of the named channels. -/
def State.flushAll (s : State) (named : List ChanIx) : State :=
  named.foldl (fun s' c => s'.setChannel c (s'.channel c).flush) s

/-- FLUSH (R117, R118). -/
def flushRequest : Handler := fun body s =>
  match readFlush body with
  | .error st => refuse st s
  | .ok named =>
    let s' := s.flushAll named
    let set := named.filter fun c => (s'.channel c).flushFlag
    accept (.flush set.length (set.map fun c => min (s.channel c).unreported.length Config.batchLimit).sum) s'

/-- The linger timer of a channel expires: linger due is set and the timer stops (R116). -/
def State.lingerExpires (s : State) (c : ChanIx) : State :=
  s.setChannel c { s.channel c with lingerTimer := none, lingerDue := true }

/-- The batch a channel hands over: its oldest records, at most 48, with its lost count (R119). -/
def Channel.batch (ch : Channel) (c : ChanIx) : ReportContent :=
  .batch c ch.lost (ch.unreported.take Config.batchLimit)

/-- The channel after its batch is admitted (R119). -/
def Channel.afterBatch (ch : Channel) : Channel :=
  { ch with
    unreported := ch.unreported.drop Config.batchLimit
    lost := 0
    flushFlag := false
    lingerDue := false
    lingerTimer :=
      if ch.setup.linger ≠ 0 ∧ ch.unreported.drop Config.batchLimit ≠ [] then startTimer ch.setup.linger else none }

/-- The lost counts of a channel's batch reports, together (R123). -/
def batchLost (reports : List Report) (c : ChanIx) : Nat :=
  (reports.map fun r =>
    match r.content with
    | .batch ch lost _ => if ch = c then lost else 0
    | _ => 0).sum

/-- A channel takes back what discarded batch reports carried: the records at the head of its list, in order of
admission, and the lost counts (R123). -/
def Channel.takeBack (ch : Channel) (records : List Record) (lost : Nat) : Channel :=
  { ch with
    unreported := records ++ ch.unreported
    lost := satAdd ch.lost lost
    lingerTimer :=
      if records ≠ [] ∧ ch.unreported = [] ∧ ch.setup.linger ≠ 0 then startTimer ch.setup.linger
      else ch.lingerTimer }

/-- Every channel takes back what the discarded reports carried for it (R123). -/
def State.returnBatches (s : State) (reports : List Report) : State :=
  { s with
    channels := Vector.ofFn fun c : ChanIx =>
      (s.channel c).takeBack (batchRecords reports c) (batchLost reports c) }

/-- FLUSH. -/
def execFlush (seq : Byte) (body : List Byte) (s : State) : Host.Outcome State Fault Refusal :=
  .next (requestStep flushRequest ⟨RequestKind.flush.code, seq, body⟩ s)

/-- LINGER_EXPIRY: the running linger timer of a channel expires (R116). -/
def execLingerExpiry (c : ChanIx) (s : State) : Host.Outcome State Fault Refusal :=
  .next (if (s.channel c).lingerTimer.isSome then s.lingerExpires c else s)

end Sys2Proof.Machine
end

