-- ==== Sys2Proof/Machine/Reports.lean ====
section
/-! DEFINITION. The Report Queue's requests, its timer and the admission arbiter (chapter 8). -/

namespace Sys2Proof.Machine

/-! ### Acknowledgement (section 8.5) -/

/-- Every sent report receives its resend mark (R138, R143, R144). -/
def markSent (reports : List Report) : List Report :=
  reports.map fun r => if r.sent then { r with resend := true } else r

/-- The report timer after an ACK in FLOWING: afresh when the new head is sent and not on the line, stopped otherwise
(R137, R141). -/
def ReportQueue.timerAfterAck (q : ReportQueue) (rest : List Report) : Option Nat :=
  match rest with
  | r :: _ => if r.sent && !r.onLine then startTimer q.timeout else none
  | [] => none

/-- The oldest `m` reports are acknowledged and leave the queue (R141); in SILENT the state returns to FLOWING and the
sent reports that remain are marked (R143). -/
def ReportQueue.acknowledge (q : ReportQueue) (m : Nat) : ReportQueue :=
  match q.state with
  | .flowing =>
    { q with reports := q.reports.drop m, retries := 0, timer := q.timerAfterAck (q.reports.drop m) }
  | .silent =>
    { q with reports := markSent (q.reports.drop m), retries := 0, timer := none, state := .flowing }

/-- The place of the sent report a number names (R141). -/
def ReportQueue.sentAt (q : ReportQueue) (n : Byte) : Option Nat :=
  q.reports.findIdx? fun r => r.seq == n && r.sent

/-- A stale number: one of the 8 just before the base (R142). -/
def ReportQueue.stale (q : ReportQueue) (n : Byte) : Bool :=
  decide (1 ≤ (q.base - n).toNat) && decide ((q.base - n).toNat ≤ 8)

/-- ACK (R141 to R143). The records of the acknowledged batches are freed with their reports (R122). -/
def ackRequest : Handler := fun body s =>
  match readAck body with
  | .error st => refuse st s
  | .ok n =>
    match s.reports.sentAt n with
    | some k => accept (.count (k + 1)) (s.setReports (s.reports.acknowledge (k + 1)))
    | none => if s.reports.stale n then accept (.count 0) s else refuse .value s

/-- REPORTS-ON (R144). -/
def reportsOnRequest : Handler := fun body s =>
  match readEmpty body with
  | .error st => refuse st s
  | .ok _ =>
    match s.reports.state with
    | .flowing => accept (.reportsOn .flowing s.reports.reports.length) s
    | .silent =>
      accept (.reportsOn .flowing s.reports.reports.length)
        (s.setReports
          { s.reports with reports := markSent s.reports.reports, retries := 0, timer := none, state := .flowing })

/-- LINK-SETUP (R145). -/
def linkSetupRequest : Handler := fun body s =>
  match readLinkSetup body with
  | .error st => refuse st s
  | .ok (timeout, limit, hos) =>
    accept (.linkSetup timeout limit hos)
      (s.setReports { s.reports with timeout := timeout, retryLimit := limit, haltOnSilence := hos })

/-- The Report Queue emptied by LINK-RESET: the link setup and the arbiter's memory are kept (R146). -/
def ReportQueue.emptied (q : ReportQueue) : ReportQueue :=
  { q with reports := [], nextSeq := 0, timer := none, retries := 0, state := .flowing }

/-- LINK-RESET: the batches return to the journal, the notices are discarded, the answer cache is emptied
(R146, R147). -/
def linkResetRequest : Handler := fun body s =>
  match readEmpty body with
  | .error st => refuse st s
  | .ok _ =>
    let reports := s.reports.reports
    let batches := reports.countP fun r => r.content.isBatch
    let records := ((List.finRange 16).map fun c => (batchRecords reports c).length).sum
    accept (.linkReset (reports.length - batches) batches records)
      (((s.returnBatches reports).setReports s.reports.emptied).setLink { s.link with cache := [] })

/-! ### The report timer (section 8.4) -/

/-- The report timer expires: a go-back while the retry count is below the limit (R138), SILENT otherwise, with SILENCE
when halt-on-silence is on (R139, R80). -/
def State.reportTimerExpires (s : State) : State :=
  if s.reports.retries < s.reports.retryLimit then
    s.setReports
      { s.reports with reports := markSent s.reports.reports, retries := s.reports.retries + 1, timer := none }
  else
    let s' := s.setReports { s.reports with timer := none, state := .silent }
    if s.reports.haltOnSilence then s'.addCause Causes.ofSilence else s'

/-! ### Admission (section 8.2) -/

/-- The round-robin search: the indices after the one served last, in rising order, then from 0 on to it
(R132, R133). -/
def rotation (n : Nat) (last : Fin n) : List (Fin n) :=
  (List.finRange n).drop (last.val + 1) ++ (List.finRange n).take (last.val + 1)

/-- What the arbiter may take in (R131). -/
inductive Ready
  | halt
  | entry (i : EntryIx)
  | level (c : ChanIx)
  | batch (c : ChanIx)
  deriving DecidableEq, Repr

/-- The slot of an entry is pending; a collecting slot is not ready (R52, R131). -/
def State.entryReady (s : State) (i : EntryIx) : Bool :=
  match s.entry i with
  | some e =>
    match e.slot with
    | .pending _ => true
    | _ => false
  | none => false

/-- The notice the notice class would serve: the halt slot whenever it is pending, else an entry slot, else a level slot
(R132), in both report states (R131); see `State.admitOne`. -/
def State.readyNotice (s : State) : Option Ready :=
  if s.halt.slot.isSome then some .halt
  else
    match (rotation 64 s.reports.lastEntry).find? s.entryReady with
    | some i => some (.entry i)
    | none => ((rotation 16 s.reports.lastLevel).find? fun c => (s.channel c).level.isSome).map Ready.level

/-- The batch the batch class would serve (R133). -/
def State.readyBatch (s : State) : Option Ready :=
  ((rotation 16 s.reports.lastBatch).find? fun c => (s.channel c).batchReady).map Ready.batch

/-- The item the arbiter chooses: where both classes wait, the one not served at the previous admission (R133). -/
def State.choose (s : State) : Option Ready :=
  match s.readyNotice, s.readyBatch with
  | some n, some b =>
    match s.reports.lastClass with
    | .notice => some b
    | .batch => some n
  | some n, none => some n
  | none, b => b

/-- A report joins the tail of the queue with the next sequence number, unsent (R128, R129). -/
def ReportQueue.push (q : ReportQueue) (content : ReportContent) : ReportQueue :=
  { q with reports := q.reports ++ [⟨q.nextSeq, content, false, false, false⟩], nextSeq := q.nextSeq + 1 }

/-- The halt notice is admitted: its other fields are read at this moment, and the slot is emptied (R87). That it is
admitted in SILENT as well is a DESIGN CHOICE, see `State.admitOne` (log entry 31). -/
def State.admitHalt (s : State) : State :=
  match s.halt.slot with
  | some added =>
    (s.setHalt { s.halt with slot := none }).setReports
      { s.reports.push (.halt s.halted s.halt.causes added s.halt.stopFiltered) with lastClass := .notice }
  | none => s

/-- An entry notice is admitted: its slot is emptied, and a RETIRED entry becomes FREE (R46, R55). -/
def State.admitEntry (s : State) (i : EntryIx) : State :=
  match s.entry i with
  | some e =>
    match e.slot with
    | .pending n =>
      (s.setEntry i (if e.progress = .retired then none else some { e with slot := .empty })).setReports
        { s.reports.push (.entry i e.plan.tag n) with lastClass := .notice, lastEntry := i }
    | _ => s
  | none => s

/-- A level notice is admitted, with level now the filtered level at this moment, and the slot is emptied (R99). That it is
admitted in SILENT as well is a DESIGN CHOICE, see `State.admitOne` (log entry 31). -/
def State.admitLevel (s : State) (c : ChanIx) : State :=
  match (s.channel c).level with
  | some n =>
    (s.setChannel c { s.channel c with level := none }).setReports
      { s.reports.push (.level c (s.channel c).filtered n) with lastClass := .notice, lastLevel := c }
  | none => s

/-- A batch is admitted (R119). -/
def State.admitBatch (s : State) (c : ChanIx) : State :=
  (s.setChannel c (s.channel c).afterBatch).setReports
    { s.reports.push ((s.channel c).batch c) with lastClass := .batch, lastBatch := c }

/-- The admission of one item. -/
def State.admitItem (s : State) (item : Ready) : State :=
  match item with
  | .halt => s.admitHalt
  | .entry i => s.admitEntry i
  | .level c => s.admitLevel c
  | .batch c => s.admitBatch c

/-- With a free place and an item ready, the arbiter admits one item (R131); the transmitter may then choose it
(R161). While a device reset holds there is nothing to take in (R177).

DESIGN CHOICE (log entry 31): admission goes on in both report states, for every kind of item, as R131, R132 and R140 say, the
rules of the chapter that covers admission and the SILENT state. One clause of R87 and of R99 says of the halt slot and of the
level slots that they stay pending while the report state is SILENT; it cannot hold as well, and the model follows it only as
far as R131 does: while the queue is full they stay pending and go on gathering. Unsafe. -/
def State.admitOne (s : State) : State :=
  if s.hold.isNone && decide (s.reports.reports.length < Config.reportPlaces) then
    match s.choose with
    | some item => (s.admitItem item).transmitChoice
    | none => s
  else s

/-! ### The commands -/

/-- ACK. -/
def execAck (seq : Byte) (body : List Byte) (s : State) : Host.Outcome State Fault Refusal :=
  .next (requestStep ackRequest ⟨RequestKind.ack.code, seq, body⟩ s)

/-- REPORTS_ON. -/
def execReportsOn (seq : Byte) (body : List Byte) (s : State) : Host.Outcome State Fault Refusal :=
  .next (requestStep reportsOnRequest ⟨RequestKind.reportsOn.code, seq, body⟩ s)

/-- LINK_SETUP. -/
def execLinkSetup (seq : Byte) (body : List Byte) (s : State) : Host.Outcome State Fault Refusal :=
  .next (requestStep linkSetupRequest ⟨RequestKind.linkSetup.code, seq, body⟩ s)

/-- LINK_RESET. -/
def execLinkReset (seq : Byte) (body : List Byte) (s : State) : Host.Outcome State Fault Refusal :=
  .next (requestStep linkResetRequest ⟨RequestKind.linkReset.code, seq, body⟩ s)

/-- REPORT_TIMER_EXPIRY: the running report timer expires (R138, R139). -/
def execReportTimerExpiry (s : State) : Host.Outcome State Fault Refusal :=
  .next (if s.reports.timer.isSome then s.reportTimerExpires.transmitChoice else s)

/-- ADMISSION (R131). -/
def execAdmission (s : State) : Host.Outcome State Fault Refusal := .next s.admitOne

end Sys2Proof.Machine
end

