-- ==== Sys2Proof/Machine/Timebase.lean ====
section
/-! DEFINITION. The Timebase's requests and ticks (chapter 1). -/

namespace Sys2Proof.Machine

/-- Every channel restarts its interval reference (R10, R11, R97). -/
def State.restartReferences (s : State) : State := s.mapChannels fun ch => { ch with reference := none }

/-- TIME-SETUP sets the source and the divider (R9). -/
def timeSetupRequest : Handler := fun body s =>
  match readTimeSetup body with
  | .error st => refuse st s
  | .ok (source, divider) =>
    if s.running || s.anyLive then refuse .state s
    else accept .none (s.setTimebase { s.timebase with source := source, divider := divider, prescale := 0 })

/-- TIME-SET loads the count (R10). -/
def timeSetRequest : Handler := fun body s =>
  match readTimeSet body with
  | .error st => refuse st s
  | .ok count =>
    if s.running || s.anyLive then refuse .state s
    else accept .none ((s.setTimebase { s.timebase with count := count }).restartReferences)

/-- TIME-RUN starts the count (R11). -/
def timeRunRequest : Handler := fun body s =>
  match readEmpty body with
  | .error st => refuse st s
  | .ok _ =>
    if s.running then accept (.tick s.now) s
    else
      accept (.tick s.now)
        ((s.setTimebase { s.timebase with state := .running, prescale := 0 }).restartReferences)

/-- TIME-STOP stops the count (R12). -/
def timeStopRequest : Handler := fun body s =>
  match readEmpty body with
  | .error st => refuse st s
  | .ok _ =>
    if s.running then accept (.tick s.now) (s.setTimebase { s.timebase with state := .stopped, prescale := 0 })
    else accept (.tick s.now) s

/-- TIME-READ reports the Timebase (R14). -/
def timeReadRequest : Handler := fun body s =>
  match readEmpty body with
  | .error st => refuse st s
  | .ok _ => accept (.timeRead s.now s.timebase.state s.timebase.source s.timebase.divider) s

/-- An internal tick: the prescale phase returns to 0 and the count advances; there is none while the timebase is STOPPED
or the source EXTERNAL (R2, R3). -/
def State.internalTick (s : State) : State :=
  if s.running && decide (s.timebase.source = .internal) then (s.setTimebase { s.timebase with prescale := 0 }).advance
  else s

/-- A rising edge on CNT: it advances the count while RUNNING with source EXTERNAL, and is not remembered otherwise
(R4). -/
def State.cntRise (s : State) : State :=
  if s.running && decide (s.timebase.source = .external) then s.advance else s

/-- TIME_SETUP. -/
def execTimeSetup (seq : Byte) (body : List Byte) (s : State) : Host.Outcome State Fault Refusal :=
  .next (requestStep timeSetupRequest ⟨RequestKind.timeSetup.code, seq, body⟩ s)

/-- TIME_SET. -/
def execTimeSet (seq : Byte) (body : List Byte) (s : State) : Host.Outcome State Fault Refusal :=
  .next (requestStep timeSetRequest ⟨RequestKind.timeSet.code, seq, body⟩ s)

/-- TIME_RUN. -/
def execTimeRun (seq : Byte) (body : List Byte) (s : State) : Host.Outcome State Fault Refusal :=
  .next (requestStep timeRunRequest ⟨RequestKind.timeRun.code, seq, body⟩ s)

/-- TIME_STOP. -/
def execTimeStop (seq : Byte) (body : List Byte) (s : State) : Host.Outcome State Fault Refusal :=
  .next (requestStep timeStopRequest ⟨RequestKind.timeStop.code, seq, body⟩ s)

/-- TIME_READ. -/
def execTimeRead (seq : Byte) (body : List Byte) (s : State) : Host.Outcome State Fault Refusal :=
  .next (requestStep timeReadRequest ⟨RequestKind.timeRead.code, seq, body⟩ s)

/-- INTERNAL_TICK: the prescale phase has reached the divider (R3). -/
def execInternalTick (s : State) : Host.Outcome State Fault Refusal := .next s.internalTick

/-- CNT_RISING_EDGE: a sample at high that follows a sample at low (R4). While a device reset holds, CNT is not sampled
(R177). -/
def execCntRisingEdge (s : State) : Host.Outcome State Fault Refusal :=
  .next (if s.hold.isSome then s
    else (s.setTimebase { s.timebase with cntRaw := true, cntSample := some true }).cntRise)

end Sys2Proof.Machine
end

