-- ==== Sys2Proof/Machine/Requests.lean ====
section
/-! DEFINITION. The owner of each request (Table 10-1), and the two rows of frames of any kind: UNKNOWN and
ANSWER_CACHE_RESEND. -/

namespace Sys2Proof.Machine

/-- The execution of each defined request at its owner (Table 10-1). -/
def handlerFor : RequestKind → Handler
  | .hello => helloRequest
  | .status => statusRequest
  | .restart => restartRequest
  | .ack => ackRequest
  | .reportsOn => reportsOnRequest
  | .linkSetup => linkSetupRequest
  | .linkReset => linkResetRequest
  | .timeSetup => timeSetupRequest
  | .timeSet => timeSetRequest
  | .timeRun => timeRunRequest
  | .timeStop => timeStopRequest
  | .timeRead => timeReadRequest
  | .place => placeRequest
  | .entryQuery => entryQueryRequest
  | .entryList => entryListRequest
  | .cancel => cancelRequest
  | .timelineClear => timelineClearRequest
  | .lineSetup => lineSetupRequest
  | .lineWrite => lineWriteRequest
  | .linesRead => linesReadRequest
  | .halt => haltRequest
  | .resume => resumeRequest
  | .stopSetup => stopSetupRequest
  | .channelSetup => channelSetupRequest
  | .channelQuery => channelQueryRequest
  | .flush => flushRequest

/-- The execution of a request by its kind code; an undefined one is answered UNKNOWN (R168). -/
def handlerOf (kind : Byte) : Handler :=
  match RequestKind.ofByte kind with
  | some r => handlerFor r
  | none => unknownRequest

/-- A frame handed to the Link Controller, whatever request its kind names. -/
def State.requestFrame (s : State) (f : Frame) : State := requestStep (handlerOf f.kind) f s

/-- The Link Controller takes the head frame of the request queue when it can (R160, R164). -/
def State.serveRequest (s : State) : State :=
  match s.link.requests with
  | f :: _ => if s.canTake then s.takeHead (handlerOf f.kind) f else s
  | [] => s

/-- UNKNOWN (R168); a frame whose kind does name a request is that request (log entry 26). -/
def execUnknown (kind seq : Byte) (body : List Byte) (s : State) : Host.Outcome State Fault Refusal :=
  .next (s.requestFrame ⟨kind, seq, body⟩)

/-- ANSWER_CACHE_RESEND (R165); a frame whose number is not in the cache is a first copy and is executed by its kind
(R167, log entry 26). -/
def execAnswerCacheResend (kind seq : Byte) (body : List Byte) (s : State) : Host.Outcome State Fault Refusal :=
  .next (requestStep (handlerOf kind) ⟨kind, seq, body⟩ s)

end Sys2Proof.Machine
end

