-- ==== Sys2Proof/Machine/Clock.lean ====
section
/-! DEFINITION. One period of the base clock: what the part does on its own when no command waits (log entries 2, 3).

The pins keep the levels the last commands gave them. Each part below is one block's share of the period. -/

namespace Sys2Proof.Machine

/-! ### Timebase (R3, R4) -/

/-- With source INTERNAL and RUNNING, the prescale phase counts a period; the tick falls when it reaches the divider
(R3). -/
def State.prescalePeriod (s : State) : State :=
  if s.running && decide (s.timebase.source = .internal) then
    if s.timebase.divider ≤ s.timebase.prescale + 1 then s.internalTick
    else s.setTimebase { s.timebase with prescale := s.timebase.prescale + 1 }
  else s

/-- CNT is sampled once a period, in every state; a rising edge is a sample at high after a sample at low (R4). -/
def State.cntPeriod (s : State) : State :=
  let s' := s.setTimebase { s.timebase with cntSample := some s.timebase.cntRaw }
  if s.timebase.cntRaw && decide (s.timebase.cntSample = some false) then s'.cntRise else s'

/-! ### The filters (R76, R91) -/

/-- STOP is sampled once a period (R76). -/
def State.stopPeriod (s : State) : State :=
  match s.halt.stopWindow with
  | none => if s.halt.stopRaw = s.halt.stopFiltered then s else s.openStopWindow
  | some n =>
    if s.halt.stopRaw = s.halt.stopFiltered then s.stopReturns
    else if Config.stopFilterPeriods ≤ n + 1 then s.acceptStop
    else s.setHalt { s.halt with stopWindow := some (n + 1) }

/-- An input line is sampled once a period (R91, R92). -/
def State.inputPeriod (s : State) (c : ChanIx) : State :=
  let ch := s.channel c
  match ch.window with
  | none => if ch.raw = ch.filtered then s else s.rawTransition c
  | some w =>
    if ch.raw = ch.filtered then s.setChannel c ch.glitch
    else if ch.setup.filter * Config.periodsPerUs ≤ w.elapsed + 1 then s.acceptEdge c w.stamp
    else s.setChannel c { ch with window := some { w with elapsed := w.elapsed + 1 } }

/-- The sixteen input lines. -/
def State.inputsPeriod (s : State) : State := (List.finRange 16).foldl State.inputPeriod s

/-! ### RX (R149) -/

/-- The byte of eight data bits, the least significant first (R149). -/
def byteOfBits (bits : List Bool) : Byte :=
  BitVec.ofNat 8 (bits.foldr (fun b n => n * 2 + (if b then 1 else 0)) 0)

/-- RX is sampled once a period: a fall marks a start bit, data bits are taken at the middle of their bit periods, and the
stop bit at the middle of the tenth, which is the character's arrival (R149, log entry 15). -/
def State.rxPeriod (s : State) : State :=
  let level := s.link.rxRaw
  let bit := s.link.rate.bitPeriod
  let sampler := fun x : RxSampler => s.setLink { s.link with rxSampler := x }
  match s.link.rxSampler with
  | .recover => if level then sampler (.idle true) else s
  | .idle prior => if prior && !level then sampler (.character 0 []) else sampler (.idle level)
  | .character elapsed bits =>
    if bits.length < 8 then
      if elapsed + 1 = (bits.length + 1) * bit + bit / 2 then sampler (.character (elapsed + 1) (bits ++ [level]))
      else sampler (.character (elapsed + 1) bits)
    else if elapsed + 1 < 9 * bit + bit / 2 then sampler (.character (elapsed + 1) bits)
    else (sampler (if level then .idle true else .recover)).receive (byteOfBits bits) level

/-! ### The millisecond clock (R8) -/

/-- A running timer at a step of the millisecond clock: whether it expires, and what it holds otherwise. -/
def stepTimer : Option Nat → Bool × Option Nat
  | none => (false, none)
  | some n => if n ≤ 1 then (true, none) else (false, some (n - 1))

/-- The gap timer at a step (R155). -/
def State.stepGap (s : State) : State :=
  if (stepTimer s.link.gapTimer).1 then s.gapAbort
  else s.setLink { s.link with gapTimer := (stepTimer s.link.gapTimer).2 }

/-- The report timer at a step (R137). -/
def State.stepReportTimer (s : State) : State :=
  if (stepTimer s.reports.timer).1 then s.reportTimerExpires
  else s.setReports { s.reports with timer := (stepTimer s.reports.timer).2 }

/-- A linger timer at a step (R116). -/
def State.stepLinger (s : State) (c : ChanIx) : State :=
  if (stepTimer (s.channel c).lingerTimer).1 then s.lingerExpires c
  else s.setChannel c { s.channel c with lingerTimer := (stepTimer (s.channel c).lingerTimer).2 }

/-- One step of the millisecond clock reaches every running timer (R8). -/
def State.msStep (s : State) : State := (List.finRange 16).foldl State.stepLinger s.stepGap.stepReportTimer

/-- The millisecond clock steps once in every 24,000 periods (R8). -/
def State.msPeriod (s : State) : State :=
  if Config.periodsPerMs ≤ s.timebase.msPhase + 1 then (s.setTimebase { s.timebase with msPhase := 0 }).msStep
  else s.setTimebase { s.timebase with msPhase := s.timebase.msPhase + 1 }

/-! ### The transmitter (R159) -/

/-- The frame on the line runs one period, and ends when its last stop bit has left TX; an idle transmitter chooses
(R159, R161). -/
def State.txPeriod (s : State) : State :=
  match s.link.tx with
  | none => s.transmitChoice
  | some f =>
    if f.item.periods s.link.rate ≤ f.elapsed + 1 then s.frameEnds
    else s.setLink { s.link with tx := some { f with elapsed := f.elapsed + 1 } }

/-! ### The whole period -/

/-- A period while a device reset holds: a RESTART's ends by itself after 24,000 periods; the end of a power-on reset and
of a pin reset comes from outside (R177, log entry 6). -/
def State.holdPeriod (s : State) (h : ResetHold) : State :=
  if h.cause = .restart ∧ Config.restartHoldPeriods ≤ h.elapsed + 1 then s.endReset .restart
  else { s with hold := some { h with elapsed := h.elapsed + 1 } }

/-- One period of the base clock (log entry 3 gives the order of its parts). The frame on the line runs its period before
a request is taken and an item admitted, so that a frame the transmitter takes in this period begins in the next one
(log entry 27). -/
def State.basePeriod (s : State) : State :=
  match s.hold with
  | some h => s.holdPeriod h
  | none =>
    s.prescalePeriod.cntPeriod.stopPeriod.inputsPeriod.rxPeriod.msPeriod.txPeriod.serveRequest.admitOne

end Sys2Proof.Machine
end

