-- ==== Sys2Proof/Machine/Dispatch.lean ====
section
/-! DEFINITION. The meaning of each command: one arm for each row of spec/opcode_table.json, in the table's order. -/

namespace Sys2Proof.Machine

/-- A command's effect on everything but the queue of waiting commands. -/
def exec (i : Instr) (s : State) : Host.Outcome State Fault Refusal :=
  match i with
  | .hello seq body => Sys2Proof.Machine.execHello seq body s
  | .status seq body => Sys2Proof.Machine.execStatus seq body s
  | .restart seq body => Sys2Proof.Machine.execRestart seq body s
  | .unknown kind seq body => Sys2Proof.Machine.execUnknown kind seq body s
  | .answerCacheResend kind seq body => Sys2Proof.Machine.execAnswerCacheResend kind seq body s
  | .ack seq body => Sys2Proof.Machine.execAck seq body s
  | .reportsOn seq body => Sys2Proof.Machine.execReportsOn seq body s
  | .linkSetup seq body => Sys2Proof.Machine.execLinkSetup seq body s
  | .linkReset seq body => Sys2Proof.Machine.execLinkReset seq body s
  | .timeSetup seq body => Sys2Proof.Machine.execTimeSetup seq body s
  | .timeSet seq body => Sys2Proof.Machine.execTimeSet seq body s
  | .timeRun seq body => Sys2Proof.Machine.execTimeRun seq body s
  | .timeStop seq body => Sys2Proof.Machine.execTimeStop seq body s
  | .timeRead seq body => Sys2Proof.Machine.execTimeRead seq body s
  | .place seq body => Sys2Proof.Machine.execPlace seq body s
  | .entryQuery seq body => Sys2Proof.Machine.execEntryQuery seq body s
  | .entryList seq body => Sys2Proof.Machine.execEntryList seq body s
  | .cancel seq body => Sys2Proof.Machine.execCancel seq body s
  | .timelineClear seq body => Sys2Proof.Machine.execTimelineClear seq body s
  | .lineSetup seq body => Sys2Proof.Machine.execLineSetup seq body s
  | .lineWrite seq body => Sys2Proof.Machine.execLineWrite seq body s
  | .linesRead seq body => Sys2Proof.Machine.execLinesRead seq body s
  | .halt seq body => Sys2Proof.Machine.execHalt seq body s
  | .resume seq body => Sys2Proof.Machine.execResume seq body s
  | .stopSetup seq body => Sys2Proof.Machine.execStopSetup seq body s
  | .channelSetup seq body => Sys2Proof.Machine.execChannelSetup seq body s
  | .channelQuery seq body => Sys2Proof.Machine.execChannelQuery seq body s
  | .flush seq body => Sys2Proof.Machine.execFlush seq body s
  | .internalTick => Sys2Proof.Machine.execInternalTick s
  | .cntRisingEdge => Sys2Proof.Machine.execCntRisingEdge s
  | .rawTransition channel => Sys2Proof.Machine.execRawTransition channel s
  | .glitch channel => Sys2Proof.Machine.execGlitch channel s
  | .edgeAccepted channel => Sys2Proof.Machine.execEdgeAccepted channel s
  | .stopWindowOpen => Sys2Proof.Machine.execStopWindowOpen s
  | .stopGlitch => Sys2Proof.Machine.execStopGlitch s
  | .stopLevelAccepted => Sys2Proof.Machine.execStopLevelAccepted s
  | .lingerExpiry channel => Sys2Proof.Machine.execLingerExpiry channel s
  | .reportTimerExpiry => Sys2Proof.Machine.execReportTimerExpiry s
  | .admission => Sys2Proof.Machine.execAdmission s
  | .rxCharacter value stopBit => Sys2Proof.Machine.execRxCharacter value stopBit s
  | .gapAbort => Sys2Proof.Machine.execGapAbort s
  | .txFrameEnd => Sys2Proof.Machine.execTxFrameEnd s
  | .powerOn => Sys2Proof.Machine.execPowerOn s
  | .resetPin => Sys2Proof.Machine.execResetPin s
  | .resetEnd rate1 rate0 stop inputs => Sys2Proof.Machine.execResetEnd rate1 rate0 stop inputs s

end Sys2Proof.Machine
end

