-- ==== Sys2Proof/Machine/Step.lean ====
section
/-! DEFINITION. One step of the part: the command at the front of the queue, or one base-clock period when none waits. -/

namespace Sys2Proof.Machine

/-- The command at the front of the queue runs with the queue's rest; with no command waiting, one period of the base
clock passes (log entry 2). -/
def step (s : State) : Host.Outcome State Fault Refusal :=
  match s.pending with
  | c :: rest => exec c (s.setPending rest)
  | [] => .next s.basePeriod

/-- `s` with the command a word spells put at the front of its queue; the table gives bits to no row, so no word spells
one and `s` is unchanged. -/
def State.withFetchWord (s : State) (nbits w : Nat) : State :=
  match decodeTableWord nbits w with
  | some c => s.setPending (c :: s.pending)
  | none => s

end Sys2Proof.Machine
end

