-- ==== Sys2Proof/Safety.lean ====
section
/-! DEFINITION. What the part upholds: the conditions that the spec states of every state it can be in, as predicates on
State, and the terms the statements use. -/

namespace Sys2Proof.Machine

/-- The Timebase: a divider from 1 to 65,535, a prescale phase below it, and 0 while STOPPED (R2, R3). -/
abbrev TimebaseOk (s : State) : Prop :=
  1 ≤ s.timebase.divider ∧ s.timebase.divider ≤ 65535 ∧ s.timebase.prescale < s.timebase.divider ∧
    (s.timebase.state = .stopped → s.timebase.prescale = 0)

/-- The link's stores: at most four request frames (R158), and at most four answers with distinct numbers (R166). -/
abbrev LinkStoresOk (s : State) : Prop :=
  s.link.requests.length ≤ Config.requestPlaces ∧ s.link.cache.length ≤ Config.cachePlaces ∧
    (s.link.cache.map Answer.seq).Nodup

/-- One report at a place of the queue: its number follows from the place (R129); it is sent only inside the window, and
only a sent report is marked or on the line (R128, R135). -/
abbrev ReportAtOk (q : ReportQueue) (k : Nat) (r : Report) : Prop :=
  r.seq = q.nextSeq - BitVec.ofNat 8 (q.reports.length - k) ∧ (r.sent = true → k < Config.reportWindow) ∧
    (r.resend = true → r.sent = true) ∧ (r.onLine = true → r.sent = true)

/-- The Report Queue: at most 32 reports (R128), consecutive numbers (R129), the sent reports a run at the head of at most
8 (R135). -/
abbrev ReportsOk (q : ReportQueue) : Prop :=
  q.reports.length ≤ Config.reportPlaces ∧
    (∀ k : Fin q.reports.length, ReportAtOk q k.val q.reports[k]) ∧
    (∀ k : Fin q.reports.length, ∀ j : Fin q.reports.length,
      j.val ≤ k.val → q.reports[k].sent = true → q.reports[j].sent = true)

/-- The journal: no channel holds more than its quota (R110), all together no more than 256 places (R107). -/
abbrev JournalOk (s : State) : Prop :=
  (∀ c : ChanIx, s.heldCount c ≤ (s.channel c).setup.quota) ∧ s.heldTotal ≤ Config.recordPlaces

/-- The Due List holds exactly the entries with a due time, each once (R23). -/
abbrev DueListOk (s : State) : Prop :=
  s.dueList.Nodup ∧ ∀ i : EntryIx, i ∈ s.dueList ↔ (s.dueOf i).isSome = true

/-- While HALTED no entry is TRAILING (R81), and a TIMED line's timed level is its safe level (R68). -/
abbrev HaltOk (s : State) : Prop :=
  s.halted = true →
    (∀ i : EntryIx, entryState (s.entry i) ≠ .trailing) ∧
      ∀ n : LineIx, (s.line n).mode = .timed → (s.line n).timed = (s.line n).safe

/-- Every live entry names a TIMED line (R71). -/
abbrev LinesOk (s : State) : Prop :=
  ∀ n : LineIx, s.lineHeld n = true → (s.line n).mode = .timed

/-- No entry that could wait on a channel names an OFF one (R101, R103). -/
abbrev TriggersOk (s : State) : Prop :=
  ∀ c : ChanIx, s.channelHeld c = true → (s.channel c).setup.mode ≠ .off

/-- A WAITING entry was started ON and has arms left; a PENDING entry has an occurrence remaining (R21, R22). -/
def Entry.progressOk (e : Entry) : Bool :=
  match e.progress with
  | .waiting => e.plan.start.arms.isSome && e.armed
  | .pending _ remaining => remaining.positive
  | _ => true

/-- Every entry's progress is one its state allows (R21, R22), and only an entry started ON has arms left. -/
abbrev EntriesOk (s : State) : Prop :=
  ∀ i : EntryIx, ∀ e ∈ s.entry i, e.progressOk = true ∧ e.armsLeft.isSome = e.plan.start.arms.isSome

/-- The counts of an entry notice stop at 65,535 (Table 3-1, R53). -/
def EntryNotice.countsOk (n : EntryNotice) : Bool :=
  decide (n.firedCount ≤ Config.counterLimit) && decide (n.missedCount ≤ Config.counterLimit) &&
    decide (n.overrunCount ≤ Config.counterLimit)

/-- The saturating counters stop at 65,535: the link error counters (R157), the glitch and lost counts (R92, R112), the
changes of the level notices (Table 6-3, R98) and the counts of the entry notices (Table 3-1, R53). -/
abbrev CountersOk (s : State) : Prop :=
  s.link.framing ≤ Config.counterLimit ∧ s.link.gapAborts ≤ Config.counterLimit ∧
    s.link.crcErrors ≤ Config.counterLimit ∧ s.link.overruns ≤ Config.counterLimit ∧
    (∀ c : ChanIx, (s.channel c).glitches ≤ Config.counterLimit ∧ (s.channel c).lost ≤ Config.counterLimit ∧
      ∀ n ∈ (s.channel c).level, n.changes ≤ Config.counterLimit) ∧
    ∀ i : EntryIx, ∀ e ∈ s.entry i, ∀ n ∈ e.slot.notice, n.countsOk = true

/-- A step is safe: it answers a next state. -/
def safeStep (s : State) : Bool :=
  match step s with
  | .next _ => true
  | _ => false

/-! ### The Due List's order -/

/-- A start delay is from 1 to the horizon, a trigger delay up to it, and arms take two bytes (Table 2-1, R26). -/
def Start.inRange : Start → Bool
  | .atTime _ _ => true
  | .afterDelay d => withinHorizon d
  | .onTrigger _ _ d arms => decide (d.toNat ≤ Config.horizon) && decide (arms < 65536)

/-- A plan's times are in their ranges (Table 2-1, R26): a width, a period and a start delay from 1 to the horizon, a
trigger delay up to it, a width less than the period, a count and arms of two bytes. -/
abbrev Plan.InRange (p : Plan) : Prop :=
  p.action.width.all withinHorizon = true ∧
    p.rep.all (fun r => withinHorizon r.period && decide (r.count < 65536)) = true ∧
    p.action.width.all (fun w => p.rep.all fun r => decide (w.toNat < r.period.toNat)) = true ∧
    p.start.inRange = true

/-- A TRAILING entry stands on its grid: its action is a pulse, its due time is its lead plus the width, and lies ahead by
at most the width (R21, R41, R49). -/
def Entry.onGrid (e : Entry) (now : Tick) : Bool :=
  match e.progress with
  | .trailing due lead _ _ =>
    match e.plan.action.width with
    | some w => decide (due = lead + w) && decide (distance now due ≤ w.toNat)
    | none => false
  | _ => true

/-- Every record's plan is in range, and every TRAILING entry stands on its grid (R21, R26, R41, R49). -/
abbrev PlansOk (s : State) : Prop :=
  ∀ i : EntryIx, ∀ e ∈ s.entry i, e.plan.InRange ∧ e.onGrid s.now = true

/-- The Due List is ordered by distance, and every due time on it lies ahead, by at most 2^31 (R23, R24). -/
abbrev DueOrderOk (s : State) : Prop :=
  s.dueList.Pairwise (fun i j => s.dueDistance i ≤ s.dueDistance j) ∧
    ∀ i ∈ s.dueList, 1 ≤ s.dueDistance i ∧ s.dueDistance i ≤ 2 ^ 31

/-! ### The terms the statements about requests use -/

end Sys2Proof.Machine

namespace Sys2Proof

/-- The frame of a request row. -/
abbrev RequestKind.frame (k : RequestKind) (seq : Byte) (body : List Byte) : Machine.Frame := ⟨k.code, seq, body⟩

/-- The answer of a request of kind `k`: kind + 0x80, the request's number, OK and fields (R159, R183). -/
def RequestKind.okAnswer (k : RequestKind) (seq : Byte) (fields : Machine.AnswerFields) : Machine.Answer :=
  ⟨k.code + 0x80, seq, .ok, fields⟩

/-- The body lengths each request allows (Table 11-3); PLACE's run from 7 to 34 and follow its presence indicator. -/
def RequestKind.allows : RequestKind → Nat → Bool
  | .hello, n => n == 0
  | .status, n => n == 1
  | .restart, n => n == 0
  | .ack, n => n == 1
  | .reportsOn, n => n == 0
  | .linkSetup, n => n == 4
  | .linkReset, n => n == 0
  | .timeSetup, n => n == 3
  | .timeSet, n => n == 4
  | .timeRun, n => n == 0
  | .timeStop, n => n == 0
  | .timeRead, n => n == 0
  | .place, n => decide (7 ≤ n) && decide (n ≤ 34)
  | .entryQuery, n => n == 1
  | .entryList, n => n == 1
  | .cancel, n => n == 2 || n == 3
  | .timelineClear, n => n == 0
  | .lineSetup, n => n == 3
  | .lineWrite, n => n == 4
  | .linesRead, n => n == 0
  | .halt, n => n == 0
  | .resume, n => n == 0
  | .stopSetup, n => n == 2
  | .channelSetup, n => n == 11
  | .channelQuery, n => n == 2
  | .flush, n => n == 1

end Sys2Proof

namespace Sys2Proof.Machine

/-- A frame handed in now is taken and executed: no device reset holds, no RESTART has been executed, the answer waiting is
empty (R160, R175), the request queue is empty or this frame is its head (R158), and no cached answer has its number
(R165). That a request command hands its frame in and has it taken in one step is the model's choice (log entry 4). -/
abbrev Executes (s : State) (f : Frame) : Prop :=
  s.hold = none ∧ s.link.restartTaken = false ∧ s.link.waiting = none ∧
    (s.link.requests = [] ∨ s.link.requests.head? = some f) ∧ ∀ a ∈ s.link.cache, a.seq ≠ f.seq

/-- The link once an answer has been placed in the answer waiting: an idle transmitter takes it for a frame at once, and a
sending one leaves it waiting (R160, R161). -/
def Link.sending (l : Link) (a : Answer) : Link :=
  { l with
    waiting := if l.tx.isSome then some a else none
    tx := if l.tx.isSome then l.tx else some ⟨.answer a, 0⟩ }

/-- The link once a request has been executed: its frame has left the queue (R160), its answer stands newest in the cache,
the one stored longest ago dropped when four stood there (R166), and the answer is sent or waits. -/
def Link.answered (l : Link) (a : Answer) : Link :=
  { l with
    requests := l.requests.tail
    cache := (if l.cache.length < 4 then l.cache else l.cache.tail) ++ [a] }.sending a

/-- The state after a request that was refused: nothing has changed but the link, which answers the status alone
(R170, R183). -/
def State.refused (s : State) (k : RequestKind) (seq : Byte) (st : Status) : State :=
  { s with link := s.link.answered ⟨k.code + 0x80, seq, st, .none⟩ }

/-- An entry is live: WAITING, PENDING or TRAILING (R22). -/
abbrev LiveEntry (s : State) : Prop := ∃ i : EntryIx, ∃ e ∈ s.entry i, e.progress ≠ .retired

/-- A live entry names the line (R71). -/
abbrev LineClaimed (s : State) (n : LineIx) : Prop :=
  ∃ i : EntryIx, ∃ e ∈ s.entry i, e.progress ≠ .retired ∧ e.plan.line = n

/-- The body of a PLACE request (Table 11-4): the fixed part with the presence indicator, then the present fields. -/
def Plan.body (p : Plan) : List Byte :=
  bytes16 p.tag.toNat ++ bytes8 p.line.val ++ bytes8 p.action.code ++ bytes8 p.start.code ++ bytes8 p.notifyCode ++
    bytes8 (memberBit p.action.width.isSome 0 + memberBit p.start.time.isSome 1 + memberBit p.start.delay.isSome 2 +
      memberBit p.start.triggerBytes.isSome 3 + memberBit p.start.arms.isSome 4 + memberBit p.start.late.isSome 5 +
      memberBit p.rep.isSome 6 + memberBit p.rep.isSome 7) ++
    optBytes tickBytes p.action.width ++ optBytes tickBytes p.start.time ++ optBytes tickBytes p.start.delay ++
    optBytes id p.start.triggerBytes ++ optBytes bytes16 p.start.arms ++
    optBytes (fun l => bytes8 (LatePolicy.code l)) p.start.late ++
    optBytes (fun r => tickBytes r.period) p.rep ++ optBytes (fun r => bytes16 r.count) p.rep

/-- The FORMAT check of PLACE (R26, R182): the body is 7 bytes with the fields its presence indicator names behind them,
and the fields that the action and the start form need are present. -/
def placeFits (body : List Byte) : Bool :=
  match body with
  | _ :: _ :: _ :: action :: start :: _ :: p :: rest =>
    let has := fun b => p.getLsbD b
    let size := fun b n => if has b then n else 0
    decide (rest.length = size 0 4 + size 1 4 + size 2 4 + size 3 6 + size 4 2 + size 5 1 + size 6 4 + size 7 2) &&
      (has 0 == (action == 3 || action == 4)) && (start != 0 || (has 1 && has 5)) && (start != 1 || has 2) &&
      (start != 2 || (has 3 && has 4)) && (!has 6 || has 7)
  | _ => false

/-- The lowest-numbered FREE entry is `i` (R16). -/
abbrev LowestFree (s : State) (i : EntryIx) : Prop := s.entry i = none ∧ ∀ j : EntryIx, j < i → s.entry j ≠ none

/-- `after` is `before` with the index inserted behind every index whose distance is at most `d` and before the next
(R24). -/
abbrev InsertedAt (s : State) (before : List EntryIx) (i : EntryIx) (d : Nat) (after : List EntryIx) : Prop :=
  ∃ front back, before = front ++ back ∧ after = front ++ i :: back ∧ (∀ j ∈ front, s.dueDistance j ≤ d) ∧
    ∀ j ∈ back.head?, d < s.dueDistance j

/-- At an advance of the count the Timeline takes the head of the Due List, `i`, whose record is `e` and whose due time is
reached (R39). -/
abbrev HeadTaken (u : State) (i : EntryIx) (rest : List EntryIx) (e : Entry) (due : Tick) : Prop :=
  u.dueList = i :: rest ∧ i ∉ rest ∧ u.entry i = some e ∧ e.progress.due = some due ∧ reached u.timebase.count due = true

/-- What a series that begins late makes of the state, the timeline RUNNING: its first due time `start` is reached (R31, R32,
R49). `e` is the record before, with the arm of the serving used. The leading or single action is performed and accounted
fired, the skipped grid points are missed; a pulse whose trailing time is not reached is TRAILING on its grid; otherwise its
trailing action is performed as well, and the entry is PENDING at the first grid point ahead while occurrences remain, WAITING
when none do and arms are left, and its life ends when neither is so. That the events merge no remaining when the entry is
WAITING after them is DEDUCED (log entry 10). Only the entry, its line, the Due List and the link change. -/
abbrev BeginsLate (s t : State) (i : EntryIx) (e : Entry) (start : Tick) (late : Bool) (k taken : Nat) : Prop :=
  let now := s.timebase.count
  let p := e.plan
  let left := p.firstRemaining.less taken
  let led := p.action.leading.apply (s.line p.line).timed
  let record := fun shown : Option Quantity => (e.account (.fired late) now shown).accountMisses (taken - 1) now shown
  (∀ n, n ≠ p.line → t.line n = s.line n) ∧ (∀ j, j ≠ i → t.entry j = s.entry j) ∧
  t.timebase = s.timebase ∧ t.halt = s.halt ∧ t.channels = s.channels ∧ t.reports = s.reports ∧
  t.hold = s.hold ∧ t.pending = s.pending ∧
  (∀ w, p.action.width = some w → reached now (start + w) = false →
    t.line p.line = { s.line p.line with timed := led } ∧
    t.entry i = some { record (some left) with progress := .trailing (start + w) start left false } ∧
    InsertedAt s s.dueList i (distance now (start + w)) t.dueList) ∧
  ((∀ w, p.action.width = some w → reached now (start + w) = true) →
    t.line p.line =
      { s.line p.line with
        timed :=
          match p.action.trailing with
          | some a => a.apply led
          | none => led } ∧
    (∀ r, p.rep = some r → left.positive = true →
      let due := start + BitVec.ofNat 32 (k * r.period.toNat)
      t.entry i = some { record (some left) with progress := .pending due left } ∧
      InsertedAt s s.dueList i (distance now due) t.dueList) ∧
    (left.positive = false → e.armed = true →
      t.entry i = some { record none with progress := .waiting } ∧ t.dueList = s.dueList) ∧
    (left.positive = false → e.armed = false →
      t.entry i = (record (some left)).endLife (if taken = 1 then .done else .missed) now (some (.number 0)) ∧
        t.dueList = s.dueList))

/-- The catch-up number k of a start that is reached, and the occurrences the catch-up counts (R30, R31, R33, R49). -/
abbrev CatchesUp (p : Plan) (now start : Tick) (k taken : Nat) : Prop :=
  k = (match p.rep with
    | none => 1
    | some r => (now - start).toNat / r.period.toNat + 1) ∧
  taken = match p.rep with
    | none => 1
    | some r => if r.count ≠ 0 ∧ r.count < k then r.count else k

/-- RX over a run of base-clock periods, with the level of the pin in each (R149). -/
def rxRun (levels : List Bool) (s : State) : State :=
  levels.foldl (fun u level => (u.setLink { u.link with rxRaw := level }).rxPeriod) s

/-- The state with the tick count one further and the prescale phase at 0 (R1, R3). -/
def State.ticked (s : State) : State :=
  { s with timebase := { s.timebase with count := s.timebase.count + 1, prescale := 0 } }

/-- After the entry into HALTED `i` stands ahead of `j` on the Due List: its due time is nearer; or it is as near, and `j`
was TRAILING, so that it was inserted anew, behind an `i` that kept its place or was dealt with first; or it is as near, both
kept their places, and `i` stood ahead (R24, R82). `s` is the state before and `t` the one after. -/
abbrev DueBefore (s t : State) (i j : EntryIx) : Prop :=
  t.dueDistance i < t.dueDistance j ∨
    (t.dueDistance i = t.dueDistance j ∧
      ((entryState (s.entry i) ≠ .trailing ∧ entryState (s.entry j) = .trailing) ∨
        ((entryState (s.entry i) = .trailing ↔ entryState (s.entry j) = .trailing) ∧
          s.dueList.idxOf i < s.dueList.idxOf j)))

/-- What the entry into HALTED does to the lines and the entries, and what it leaves alone (R67, R81, R82): every TIMED
line's timed level takes its safe level; every TRAILING entry goes on as if its trailing action were performed; the Due
List again holds exactly the entries with a due time, and a list that was ordered by distance is so again, each entry dealt
with inserted in list order behind every entry as near (R24, R82). -/
abbrev EntersHalted (s t : State) : Prop :=
  (∀ n : LineIx, t.line n = if (s.line n).mode = .timed then { s.line n with timed := (s.line n).safe } else s.line n) ∧
    (∀ i : EntryIx, t.entry i =
      match s.entry i with
      | none => none
      | some e =>
        match e.progress with
        | .trailing _ lead remaining cancelled =>
          if cancelled then e.endLife .cancelled s.now (some remaining)
          else
            match remaining.positive, e.plan.rep with
            | true, some r => some { e with progress := .pending (lead + r.period) remaining }
            | _, _ =>
              if e.armed then some { e with progress := .waiting } else e.endLife .done s.now (some (.number 0))
        | _ => some e) ∧
    DueListOk t ∧ (s.dueList.Pairwise (fun i j => s.dueDistance i ≤ s.dueDistance j) → t.dueList.Pairwise (DueBefore s t)) ∧
    t.timebase = s.timebase ∧ t.channels = s.channels ∧ t.hold = s.hold ∧ t.pending = s.pending

/-- The report at place `k` is the one the queue offers (R135, R136): the oldest sent one with its resend mark set; with no
mark set, the oldest unsent one, inside the window of 8. -/
abbrev ReportQueue.Offers (q : ReportQueue) (k : Nat) (r : Report) : Prop :=
  q.state = .flowing ∧ q.reports[k]? = some r ∧
    ((r.sent = true ∧ r.resend = true ∧ ∀ r' ∈ q.reports.take k, ¬(r'.sent = true ∧ r'.resend = true)) ∨
      ((∀ r' ∈ q.reports, ¬(r'.sent = true ∧ r'.resend = true)) ∧ k < 8 ∧ r.sent = false ∧
        ∀ r' ∈ q.reports.take k, r'.sent = true))

/-- Among the ready indices, `i` is the first one found searching from the index after `last`, in rising order and from the
highest on to 0 (R132, R133). -/
abbrev FirstAfter {n : Nat} (last i : Fin n) (ready : Fin n → Prop) : Prop :=
  ready i ∧ ∀ j, ready j → (i.val + n - last.val - 1) % n ≤ (j.val + n - last.val - 1) % n

/-- The channel has a batch ready (R114). -/
abbrev BatchReady (s : State) (c : ChanIx) : Prop :=
  (s.channel c).setup.threshold ≤ (s.channel c).unreported.length ∨ (s.channel c).lingerDue = true ∨
    (s.channel c).flushFlag = true

/-- The entry's slot holds a pending notice (R52). -/
abbrev SlotPending (s : State) (i : EntryIx) : Prop := ∃ e ∈ s.entry i, ∃ n, e.slot = .pending n

/-- A notice is ready (R131). -/
abbrev NoticeReady (s : State) : Prop :=
  s.halt.slot ≠ none ∨ (∃ i, SlotPending s i) ∨ ∃ c : ChanIx, (s.channel c).level ≠ none

/-- The notice class is served: a notice is ready, and no batch or the batch class was served last (R133). -/
abbrev NoticeServed (s : State) : Prop :=
  NoticeReady s ∧ ((∀ c, ¬BatchReady s c) ∨ s.reports.lastClass = .batch)

/-- A setup CHANNEL-SETUP accepts as in range (R102). -/
abbrev ChannelSetup.InRange (c : ChannelSetup) : Prop :=
  c.filter ≤ 1023 ∧ 1 ≤ c.threshold ∧ c.threshold ≤ 48 ∧ 1 ≤ c.quota ∧ c.quota ≤ 256 ∧ c.linger ≤ 60000

/-- The part as a device reset holds it: every block at its reset values and nothing driven (R177, R15, R38, R74, R89, R106,
R127, R148, R163). -/
def State.heldInReset (s : State) (cause : ResetCause) : State where
  timebase := ⟨0, .stopped, .internal, 24, 0, none, s.timebase.cntRaw, 0⟩
  entries := Vector.replicate 64 none
  dueList := []
  lines := Vector.replicate 16 ⟨.direct, false, false, false⟩
  halt := ⟨⟨false, false, false⟩, true, false, s.halt.stopRaw, none, s.halt.stopRaw, none⟩
  channels := Vector.ofFn fun c : ChanIx =>
    ⟨⟨.off, .both, 0, false, 8, 32, 0⟩, (s.channel c).raw, (s.channel c).raw, none, none, 0, none, [], 0, false, false,
      none, false⟩
  reports := ⟨[], 0, none, 0, .flowing, 50, 4, false, .batch, 63, 15, 15⟩
  link := ⟨.hunt, none, 0, 0, 0, 0, [], none, [], none, LinkRate.ofPins s.link.rate1 s.link.rate0, s.link.rate1,
    s.link.rate0, false, s.link.rxRaw, .idle true⟩
  hold := some ⟨cause, 0⟩
  pending := s.pending

/-- Feeding good characters to RX, one after the other. -/
def feed : List Byte → State → State
  | [], s => s
  | b :: rest, s =>
    match exec (.rxCharacter b true) s with
    | .next t => feed rest t
    | _ => s

end Sys2Proof.Machine
end

