-- ==== Sys2Proof/Certificates/Slice0/Obligations.lean ====
section
/-! DEFINITION. The statements for the provers: what the commands of the part do, what they leave alone, and what every
step upholds. The terms that are not of the machine itself (`Executes`, `Link.answered`, `Plan.body`, …) stand in
Sys2Proof/Safety.lean. -/

open Sys2Proof Sys2Proof.Machine

/-! ### The step -/

/-- A step runs the command at the front of the queue, with the queue's rest. With no command waiting it is one period of
the base clock, by the model's choice (log entry 2): with no device reset holding, the shares of the blocks in their order,
which is the model's choice as well (log entry 3). -/
def Obligations.StepRunsFrontCommand : Prop :=
  (∀ (s : State) (c : Instr) (rest : List Instr),
      s.pending = c :: rest → step s = exec c { s with pending := rest }) ∧
    ∀ s : State, s.pending = [] →
      step s = .next s.basePeriod ∧
        (s.hold = none →
          let ticked := s.prescalePeriod.cntPeriod
          let sampled := ticked.stopPeriod.inputsPeriod.rxPeriod
          s.basePeriod = sampled.msPeriod.txPeriod.serveRequest.admitOne)

/-- Every command completes in every state, and leaves the queue of waiting commands alone: the spec gives each row an
effect and nothing stops the part. -/
def Obligations.EveryCommandCompletes : Prop :=
  ∀ (c : Instr) (s : State), ∃ t, exec c s = .next t ∧ t.pending = s.pending

/-- Every condition of Sys2Proof/Safety.lean that a step keeps holds at reset. -/
def Obligations.InvariantsAtReset : Prop :=
  TimebaseOk State.reset ∧ CountersOk State.reset ∧ LinkStoresOk State.reset ∧ ReportsOk State.reset.reports ∧
    JournalOk State.reset ∧ DueListOk State.reset ∧ HaltOk State.reset ∧ LinesOk State.reset ∧ TriggersOk State.reset ∧
    EntriesOk State.reset ∧ PlansOk State.reset ∧ DueOrderOk State.reset

/-! ### What every step upholds -/

/-- The divider stays from 1 to 65,535, the prescale phase below it and 0 while STOPPED; the saturating counters (the four
link error counters, the glitch and lost counts, the changes of the level notices, the fired, missed and overrun counts of
the entry notices) stay at most 65,535. -/
def Obligations.TimebaseAndCountersKept : Prop :=
  ∀ s t : State, TimebaseOk s → CountersOk s → step s = .next t → TimebaseOk t ∧ CountersOk t

/-- The request queue holds at most four frames, and the answer cache at most four answers with distinct numbers. -/
def Obligations.LinkStoresKept : Prop :=
  ∀ s t : State, LinkStoresOk s → step s = .next t → LinkStoresOk t

/-- The Report Queue holds at most 32 reports with consecutive numbers, of which the sent ones are a run at the head of
at most 8. -/
def Obligations.ReportsKept : Prop :=
  ∀ s t : State, ReportsOk s.reports → step s = .next t → ReportsOk t.reports

/-- No channel holds more records than its quota, and all channels together no more than the 256 places. -/
def Obligations.JournalKept : Prop :=
  ∀ s t : State, JournalOk s → step s = .next t → JournalOk t

/-- The Due List holds exactly the entries in PENDING or TRAILING, each once; while HALTED no entry is TRAILING and
every TIMED line's timed level is its safe level. -/
def Obligations.DueListAndHaltKept : Prop :=
  ∀ s t : State, DueListOk s → HaltOk s → step s = .next t → DueListOk t ∧ HaltOk t

/-- The Due List stays ordered by distance, with every due time on it ahead. -/
def Obligations.DueOrderKept : Prop :=
  ∀ s t : State, DueListOk s → PlansOk s → DueOrderOk s → step s = .next t → PlansOk t ∧ DueOrderOk t

/-- No live entry names a DIRECT line, and no entry that could wait on a channel names an OFF one. A WAITING entry was
started ON and has arms left; a PENDING entry has an occurrence remaining. -/
def Obligations.ClaimsAndEntriesKept : Prop :=
  (∀ s t : State, LinesOk s → TriggersOk s → step s = .next t → LinesOk t ∧ TriggersOk t) ∧
  (∀ s t : State, EntriesOk s → step s = .next t → EntriesOk t)

/-! ### Frames and bodies -/

/-- Each kind code of Table 11-3 names its request, every other byte none; the codes of Table 11-2; the CRC register of
the HELLO request with number 0 after each of its bytes, and the bytes of its frame, as the manual gives them. -/
def Obligations.KindCodesAndHelloFrame : Prop :=
  (∀ (seq : Byte) (body : List Byte),
    (commandOfFrame 0x01 seq body = .hello seq body ∧ RequestKind.hello.code = 0x01) ∧
    (commandOfFrame 0x02 seq body = .status seq body ∧ RequestKind.status.code = 0x02) ∧
    (commandOfFrame 0x03 seq body = .restart seq body ∧ RequestKind.restart.code = 0x03) ∧
    (commandOfFrame 0x08 seq body = .ack seq body ∧ RequestKind.ack.code = 0x08) ∧
    (commandOfFrame 0x09 seq body = .reportsOn seq body ∧ RequestKind.reportsOn.code = 0x09) ∧
    (commandOfFrame 0x0A seq body = .linkSetup seq body ∧ RequestKind.linkSetup.code = 0x0A) ∧
    (commandOfFrame 0x0B seq body = .linkReset seq body ∧ RequestKind.linkReset.code = 0x0B) ∧
    (commandOfFrame 0x10 seq body = .timeSetup seq body ∧ RequestKind.timeSetup.code = 0x10) ∧
    (commandOfFrame 0x11 seq body = .timeSet seq body ∧ RequestKind.timeSet.code = 0x11) ∧
    (commandOfFrame 0x12 seq body = .timeRun seq body ∧ RequestKind.timeRun.code = 0x12) ∧
    (commandOfFrame 0x13 seq body = .timeStop seq body ∧ RequestKind.timeStop.code = 0x13) ∧
    (commandOfFrame 0x14 seq body = .timeRead seq body ∧ RequestKind.timeRead.code = 0x14) ∧
    (commandOfFrame 0x18 seq body = .place seq body ∧ RequestKind.place.code = 0x18) ∧
    (commandOfFrame 0x19 seq body = .entryQuery seq body ∧ RequestKind.entryQuery.code = 0x19) ∧
    (commandOfFrame 0x1A seq body = .entryList seq body ∧ RequestKind.entryList.code = 0x1A) ∧
    (commandOfFrame 0x1B seq body = .cancel seq body ∧ RequestKind.cancel.code = 0x1B) ∧
    (commandOfFrame 0x1C seq body = .timelineClear seq body ∧ RequestKind.timelineClear.code = 0x1C) ∧
    (commandOfFrame 0x20 seq body = .lineSetup seq body ∧ RequestKind.lineSetup.code = 0x20) ∧
    (commandOfFrame 0x21 seq body = .lineWrite seq body ∧ RequestKind.lineWrite.code = 0x21) ∧
    (commandOfFrame 0x22 seq body = .linesRead seq body ∧ RequestKind.linesRead.code = 0x22) ∧
    (commandOfFrame 0x24 seq body = .halt seq body ∧ RequestKind.halt.code = 0x24) ∧
    (commandOfFrame 0x25 seq body = .resume seq body ∧ RequestKind.resume.code = 0x25) ∧
    (commandOfFrame 0x26 seq body = .stopSetup seq body ∧ RequestKind.stopSetup.code = 0x26) ∧
    (commandOfFrame 0x28 seq body = .channelSetup seq body ∧ RequestKind.channelSetup.code = 0x28) ∧
    (commandOfFrame 0x29 seq body = .channelQuery seq body ∧ RequestKind.channelQuery.code = 0x29) ∧
    (commandOfFrame 0x2A seq body = .flush seq body ∧ RequestKind.flush.code = 0x2A)) ∧
  (∀ (kind seq : Byte) (body : List Byte),
    kind ∉ ([0x01, 0x02, 0x03, 0x08, 0x09, 0x0A, 0x0B, 0x10, 0x11, 0x12, 0x13, 0x14, 0x18,
      0x19, 0x1A, 0x1B, 0x1C, 0x20, 0x21, 0x22, 0x24, 0x25, 0x26, 0x28, 0x29, 0x2A] : List Byte) →
      commandOfFrame kind seq body = .unknown kind seq body) ∧
  ([Status.ok, .unknown, .format, .value, .state, .room, .none, .late, .line, .halted].map Status.code =
      [0x00, 0x01, 0x02, 0x03, 0x04, 0x05, 0x06, 0x07, 0x08, 0x09] ∧
    (∀ w : Tick, [Action.setLine, .clearLine, .toggleLine, .pulseHigh w, .pulseLow w].map Action.code = [0, 1, 2, 3, 4]) ∧
    (∀ t late d c sense arms, [Start.atTime t late, .afterDelay d, .onTrigger c sense d arms].map Start.code = [0, 1, 2]) ∧
    [TriggerSense.rise, .fall, .any].map TriggerSense.code = [0, 1, 2] ∧
    [LatePolicy.fire, .refuse].map LatePolicy.code = [0, 1] ∧
    [EntryState.free, .waiting, .pending, .trailing, .retired].map EntryState.code = [0, 1, 2, 3, 4] ∧
    [FinalOutcome.done, .cancelled, .missed].map FinalOutcome.code = [0, 1, 2] ∧
    (∀ n : EntryNotice, [EntrySlot.empty, .collecting n, .pending n].map EntrySlot.code = [0, 1, 2]) ∧
    [ChannelMode.off, .capture, .watch].map ChannelMode.code = [0, 1, 2] ∧
    [CaptureSense.rise, .fall, .both].map CaptureSense.code = [0, 1, 2] ∧
    [LineMode.direct, .timed].map LineMode.code = [0, 1] ∧
    [TimebaseState.stopped, .running].map TimebaseState.code = [0, 1] ∧
    [Source.internal, .external].map Source.code = [0, 1] ∧
    [ReportState.flowing, .silent].map ReportState.code = [0, 1] ∧
    [ResetCause.power, .pin, .restart].map ResetCause.code = [0, 1, 2] ∧
    (∀ p : Plan, p.notifyCode = (if p.each then 1 else 0) + if p.final then 2 else 0) ∧
    (∀ n : EntryNotice, n.eventsCode = (if n.fired then 1 else 0) + (if n.late then 2 else 0) +
      (if n.missed then 4 else 0) + if n.overrun then 8 else 0) ∧
    ∀ c : Causes, c.code = (if c.request then 1 else 0) + (if c.stopLine then 2 else 0) + if c.silence then 4 else 0) ∧
  (crc [0x02] = 0xC1B2 ∧ crc [0x02, 0x00] = 0x7B6D ∧ crc [0x02, 0x00, 0x01] = 0xB2DD ∧
    crc [0x02, 0x00, 0x01, 0x00] = 0x5A99 ∧
    frameBytes 0x01 0x00 [] = [0xC3, 0x02, 0x00, 0x01, 0x00, 0x99, 0x5A])

/-- A frame sent to the receiver in HUNT character by character is disposed of as R153, R156 and R158 state: a CRC that
does not match is counted, a kind that is no request kind is a framing error, and a good request frame joins the
request queue or is an overrun. Nothing else changes. -/
def Obligations.FramesReceived : Prop :=
  ∀ (s : State) (kind seq crcLow crcHigh : Byte) (body : List Byte),
    s.hold = none → s.link.receiver = .hunt → body.length ≤ 512 →
      let l := { s.link with gapTimer := none }
      let given := crcHigh ++ crcLow
      feed (0xC3 :: checkedBytes kind seq body ++ [crcLow, crcHigh]) s =
        { s with
          link :=
            if crc (checkedBytes kind seq body) ≠ given then { l with crcErrors := min (l.crcErrors + 1) 65535 }
            else if kind.toNat < 1 ∨ 0x2F < kind.toNat then { l with framing := min (l.framing + 1) 65535 }
            else if l.requests.length < 4 then { l with requests := l.requests ++ [⟨kind, seq, body⟩] }
            else { l with overruns := min (l.overruns + 1) 65535 } }

/-- What the receiver does with one character in each of its states, and at the expiry of the gap timer; a gap timer
started now has 3 steps of the millisecond clock to go. -/
def Obligations.ReceiverSteps : Prop :=
  ∀ (s : State) (v : Byte) (stop : Bool), s.hold = none →
    let go := fun r : Receiver => { s with link := { s.link with receiver := r, gapTimer := some 3 } }
    let abort := { s.link with receiver := .hunt, gapTimer := none }
    (s.link.receiver = .hunt → stop = true → v = 0xC3 → exec (.rxCharacter v stop) s = .next (go (.length []))) ∧
    (s.link.receiver = .hunt → (stop = false ∨ v ≠ 0xC3) → exec (.rxCharacter v stop) s = .next s) ∧
    (s.link.receiver = .length [] → stop = true → exec (.rxCharacter v stop) s = .next (go (.length [v]))) ∧
    (∀ low, s.link.receiver = .length [low] → stop = true →
      (2 ≤ low.toNat + 256 * v.toNat → low.toNat + 256 * v.toNat ≤ 514 →
        exec (.rxCharacter v stop) s = .next (go (.body low v (low.toNat + 256 * v.toNat) []))) ∧
      (low.toNat + 256 * v.toNat < 2 ∨ 514 < low.toNat + 256 * v.toNat →
        exec (.rxCharacter v stop) s =
          .next { s with link := { abort with framing := min (s.link.framing + 1) 65535 } })) ∧
    (∀ low high left taken, s.link.receiver = .body low high left taken → stop = true →
      exec (.rxCharacter v stop) s =
        .next (go (if 2 ≤ left then .body low high (left - 1) (taken ++ [v]) else .check low high (taken ++ [v]) []))) ∧
    (∀ low high content, s.link.receiver = .check low high content [] → stop = true →
      exec (.rxCharacter v stop) s = .next (go (.check low high content [v]))) ∧
    (s.link.receiver ≠ .hunt → stop = false →
      exec (.rxCharacter v stop) s =
        .next { s with link := { abort with framing := min (s.link.framing + 1) 65535 } }) ∧
    (s.link.receiver ≠ .hunt →
      exec .gapAbort s = .next { s with link := { abort with gapAborts := min (s.link.gapAborts + 1) 65535 } })

/-- PLACE reads exactly the bodies of Table 11-4: it accepts a body as a plan in range if and only if the body is that
plan's layout. -/
def Obligations.PlaceBodyExact : Prop :=
  ∀ (p : Plan) (body : List Byte), readPlace body = .ok p ↔ p.InRange ∧ body = p.body

/-- An answer frame: start byte, length, kind, number, status, fields, CRC; and the bytes of the fields of each answer, as
R183, Table 11-5 to Table 11-8 and the owning rules list them, every number low byte first. That the answers without a
table of chapter 11 stand in the order of their owning rules, with counts of two bytes, is DEDUCED (log entry 8). -/
def Obligations.AnswerBytes : Prop :=
  let le16 := fun n : Nat => ([BitVec.ofNat 8 n, BitVec.ofNat 8 (n / 256)] : List Byte)
  let le32 := fun n : Nat =>
    ([BitVec.ofNat 8 n, BitVec.ofNat 8 (n / 256), BitVec.ofNat 8 (n / 65536), BitVec.ofNat 8 (n / 16777216)] : List Byte)
  let tick := fun t : Tick => le32 t.toNat
  let one := fun n : Nat => ([BitVec.ofNat 8 n] : List Byte)
  let flag := fun b : Bool => ([if b then 1 else 0] : List Byte)
  let quantity := fun q : Quantity =>
    match q with
    | .number n => le32 n
    | .unlimited => [0xFF, 0xFF, 0xFF, 0xFF]
  let setup := fun c : ChannelSetup =>
    one c.mode.code ++ one c.sense.code ++ le16 c.filter ++ flag c.interval ++ one c.threshold ++ le16 c.quota ++
      le16 c.linger
  (∀ a : Answer,
    let checked := le16 (a.fields.bytes.length + 3) ++ [a.kind, a.seq] ++ one a.status.code ++ a.fields.bytes
    (TxItem.answer a).bytes = 0xC3 :: checked ++ le16 (crc checked).toNat) ∧
  AnswerFields.none.bytes = [] ∧
  (∀ rate, (AnswerFields.hello rate).bytes =
    [0x10, 0x16, 1, 16, 0, 16, 0, 64, 0, 0, 1, 32, 0, 8, 0, 4, 0] ++
      (match rate with
        | .baud115200 => le32 115200
        | .baud460800 => le32 460800
        | .baud921600 => le32 921600
        | .baud2000000 => le32 2000000)) ∧
  (∀ v : StatusView, (AnswerFields.status v).bytes =
    tick v.count ++ one v.timebase.code ++ one v.source.code ++ flag v.halted ++ one v.causes.code ++ flag v.stopEnable ++
      flag v.stopFiltered ++ one v.free ++ one v.waiting ++ one v.pending ++ one v.trailing ++ one v.retired ++
      le16 v.freePlaces ++ one v.reportState.code ++ one v.reportsQueued ++ one v.reportsSent ++ one v.retries ++
      [v.nextSeq] ++ le16 v.framing ++ le16 v.gapAborts ++ le16 v.crcErrors ++ le16 v.overruns ++ one v.requestsQueued) ∧
  (∀ n, (AnswerFields.count n).bytes = le16 n) ∧
  (∀ st n, (AnswerFields.reportsOn st n).bytes = one st.code ++ le16 n) ∧
  (∀ t l h, (AnswerFields.linkSetup t l h).bytes = le16 t ++ one l ++ flag h) ∧
  (∀ n b r, (AnswerFields.linkReset n b r).bytes = le16 n ++ le16 b ++ le16 r) ∧
  (∀ t, (AnswerFields.tick t).bytes = tick t) ∧
  (∀ t st src d, (AnswerFields.timeRead t st src d).bytes = tick t ++ one st.code ++ one src.code ++ le16 d) ∧
  (∀ (i : EntryIx) st late missed,
    (AnswerFields.place i st none none late missed).bytes = one i.val ++ one st.code ++ flag late ++ le32 missed ++ [0] ∧
    ∀ due remaining, (AnswerFields.place i st (some due) (some remaining) late missed).bytes =
      one i.val ++ one st.code ++ flag late ++ le32 missed ++ [3] ++ tick due ++ quantity remaining) ∧
  (∀ (i : EntryIx) (e : Entry), (AnswerFields.entryQuery i e).bytes =
    let p := e.plan
    let width := match p.action with
      | .pulseHigh w | .pulseLow w => (1, tick w)
      | _ => (0, [])
    let start := match p.start with
      | .atTime t late => (2 + 32, tick t ++ one late.code)
      | .afterDelay d => (4, tick d)
      | .onTrigger c sense d arms => (8 + 16, one c.val ++ one sense.code ++ tick d ++ le16 arms)
    let rep := match p.rep with
      | some r => (64 + 128, tick r.period ++ le16 r.count)
      | none => (0, [])
    let progress := match e.progress with
      | .pending due remaining => (256 + 1024, tick due ++ quantity remaining)
      | .trailing due lead remaining _ => (256 + 512 + 1024, tick due ++ tick lead ++ quantity remaining)
      | _ => (0, [])
    let armsLeft := match e.armsLeft with
      | some q => (2048, quantity q)
      | none => (0, [])
    let cancelFlag := match e.progress with
      | .trailing _ _ _ cancelled => flag cancelled
      | _ => [0]
    let slot := match e.slot with
      | .empty => ([0, 0, 0, 0, 0, 0, 0, 0, 0], [])
      | .collecting n | .pending n =>
        (one e.slot.code ++ one n.eventsCode ++ le16 n.firedCount ++ le16 n.missedCount ++ le16 n.overrunCount ++
            one (1 + (if n.outcome.isSome then 2 else 0) + if n.remaining.isSome then 4 else 0),
          tick n.lastTick ++ (n.outcome.map fun o : FinalOutcome => one o.code).getD [] ++ (n.remaining.map quantity).getD [])
    one i.val ++ one e.progress.state.code ++ le16 p.tag.toNat ++ one p.line.val ++ one p.action.code ++ one p.start.code ++
      one p.notifyCode ++ cancelFlag ++ le16 (width.1 + start.1 + rep.1 + progress.1 + armsLeft.1) ++ slot.1 ++ width.2 ++
      start.2 ++ rep.2 ++ progress.2 ++ armsLeft.2 ++ slot.2) ∧
  (∀ (listed : List ListedEntry) (next : Option EntryIx), (AnswerFields.entryList listed next).bytes =
    one listed.length ++
      listed.flatMap (fun l =>
        one l.index.val ++ one l.state.code ++ le16 l.tag.toNat ++ one l.line.val ++
          (match l.due with
            | some d => 1 :: tick d
            | none => [0])) ++
      (match next with
        | some i => 1 :: one i.val
        | none => [0])) ∧
  (∀ a d, (AnswerFields.cancel a d).bytes = le16 a ++ le16 d) ∧
  (∀ m sf dr, (AnswerFields.lineSetup m sf dr).bytes = one m.code ++ flag sf ++ flag dr) ∧
  (∀ l, (AnswerFields.lineWrite l).bytes = le16 l.toNat) ∧
  (∀ v : LinesView, (AnswerFields.linesRead v).bytes =
    le16 v.rawInputs.toNat ++ le16 v.filteredInputs.toNat ++ le16 v.driven.toNat ++ le16 v.modes.toNat ++
      le16 v.safe.toNat ++ le16 v.direct.toNat ++ le16 v.timed.toNat ++ flag v.halted) ∧
  (∀ h c, (AnswerFields.halt h c).bytes = flag h ++ one c.code) ∧
  (∀ h c l, (AnswerFields.resume h c l).bytes = flag h ++ one c.code ++ flag l) ∧
  (∀ e a f h c, (AnswerFields.stopSetup e a f h c).bytes = flag e ++ flag a ++ flag f ++ flag h ++ one c.code) ∧
  (∀ c f a, (AnswerFields.channelSetup c f a).bytes = setup c ++ flag f ++ flag a) ∧
  (∀ v : ChannelView, (AnswerFields.channelQuery v).bytes =
    setup v.setup ++ flag v.raw ++ flag v.filtered ++
      (match v.windowStamp with
        | some t => 1 :: tick t
        | none => [0]) ++
      flag v.referencePresent ++ le16 v.glitches ++
      (match v.level with
        | some n => 1 :: (le16 n.changes ++ tick n.first ++ tick n.last)
        | none => [0]) ++
      le16 v.held ++ le16 v.unreported ++ le16 v.lost ++ flag v.flushFlag) ∧
  ∀ c r, (AnswerFields.flush c r).bytes = le16 c ++ le16 r

/-- A report frame: start byte, length, kind, number, body, CRC; the kind code and the body of each report, as R184 and
Table 11-9 lay them out; the START frame's body after a power-on at 2,000,000 baud, as the manual gives it. -/
def Obligations.ReportBytes : Prop :=
  let le16 := fun n : Nat => ([BitVec.ofNat 8 n, BitVec.ofNat 8 (n / 256)] : List Byte)
  let le32 := fun n : Nat =>
    ([BitVec.ofNat 8 n, BitVec.ofNat 8 (n / 256), BitVec.ofNat 8 (n / 65536), BitVec.ofNat 8 (n / 16777216)] : List Byte)
  let tick := fun t : Tick => le32 t.toNat
  let one := fun n : Nat => ([BitVec.ofNat 8 n] : List Byte)
  let flag := fun b : Bool => ([if b then 1 else 0] : List Byte)
  let holds := fun (content : ReportContent) (kind : Byte) (body : List Byte) => content.kind = kind ∧ content.body = body
  (∀ (n : Byte) (content : ReportContent),
    let checked := le16 (content.body.length + 2) ++ [content.kind, n] ++ content.body
    (TxItem.report n content).bytes = 0xC3 :: checked ++ le16 (crc checked).toNat) ∧
  (∀ cause rate, holds (.start cause rate) 0x60 (one cause.code ++ [1] ++
    (match rate with
      | .baud115200 => le32 115200
      | .baud460800 => le32 460800
      | .baud921600 => le32 921600
      | .baud2000000 => le32 2000000))) ∧
  (∀ (c : ChanIx) lost (records : List Record), holds (.batch c lost records) 0x61
    (one c.val ++ one records.length ++ le16 lost ++
      records.flatMap fun r =>
        one ((match r.edge with
            | .rise => 0
            | .fall => 1) + (if r.interval.isSome then 2 else 0) + if r.afterLoss then 4 else 0) ++
          tick r.stamp ++ (r.interval.map tick).getD [])) ∧
  (∀ (i : EntryIx) tag (n : EntryNotice), holds (.entry i tag n) 0x62
    (one i.val ++ le16 tag.toNat ++ one n.eventsCode ++ le16 n.firedCount ++ le16 n.missedCount ++ le16 n.overrunCount ++
      tick n.lastTick ++ one ((if n.outcome.isSome then 1 else 0) + if n.remaining.isSome then 2 else 0) ++
      (match n.outcome with
        | some o => one o.code
        | none => []) ++
      (match n.remaining with
        | some (.number k) => le32 k
        | some .unlimited => [0xFF, 0xFF, 0xFF, 0xFF]
        | none => []))) ∧
  (∀ (c : ChanIx) now (n : LevelNotice), holds (.level c now n) 0x63
    (one c.val ++ flag now ++ le16 n.changes ++ tick n.first ++ tick n.last)) ∧
  (∀ h causes added level, holds (.halt h causes added level) 0x64
    (flag h ++ one causes.code ++ one added.code ++ flag level)) ∧
  (ReportContent.start .power .baud2000000).body = [0x00, 0x01, 0x80, 0x84, 0x1E, 0x00]

/-! ### Requests in general -/

/-- A request whose body has a length its kind does not allow is answered FORMAT and changes nothing else. A request
kind that names no request is answered UNKNOWN, whatever its body, and changes nothing else; the answer stands in the
cache. -/
def Obligations.UnfitRequestsRefused : Prop :=
  (∀ (s : State) (k : RequestKind) (seq : Byte) (body : List Byte),
      body.length ≤ 512 → k.allows body.length = false → Executes s (k.frame seq body) →
        exec (k.command seq body) s = .next (s.refused k seq .format)) ∧
  (∀ (s : State) (kind seq : Byte) (body : List Byte),
      1 ≤ kind.toNat → kind.toNat ≤ 0x2F → (∀ k : RequestKind, k.code ≠ kind) → body.length ≤ 512 →
        Executes s ⟨kind, seq, body⟩ →
          exec (.unknown kind seq body) s =
            .next { s with link := s.link.answered ⟨kind + 0x80, seq, .unknown, .none⟩ })

/-- A frame whose number is among the cached answers is not executed: the cached answer is sent again unchanged,
whatever kind and body the frame has, and the cache stays as it is. That the command is the arrival of a frame and its
taking in one step is the model's choice (log entries 4, 26). -/
def Obligations.CachedAnswerSentAgain : Prop :=
  ∀ (s : State) (kind seq : Byte) (body : List Byte) (a : Answer),
    1 ≤ kind.toNat → kind.toNat ≤ 0x2F → body.length ≤ 512 → LinkStoresOk s → a ∈ s.link.cache → a.seq = seq →
      s.hold = none → s.link.restartTaken = false → s.link.waiting = none →
        (s.link.requests = [] ∨ s.link.requests.head? = some ⟨kind, seq, body⟩) →
          let t := { s with link := { s.link with requests := s.link.requests.tail }.sending a }
          exec (.answerCacheResend kind seq body) s = .next t ∧
            exec (commandOfFrame kind seq body) s = .next t

/-- A frame that cannot be taken now, for the answer waiting is not empty, a RESTART has been executed or another frame
stands before it, joins the request queue, or is an overrun when four stand there. Nothing else changes. That a request
command is the arrival of its frame is the model's choice (log entry 4). -/
def Obligations.FrameWaitsOrOverruns : Prop :=
  ∀ (s : State) (kind seq : Byte) (body : List Byte),
    1 ≤ kind.toNat → kind.toNat ≤ 0x2F → body.length ≤ 512 → s.hold = none →
      ((s.link.waiting ≠ none ∨ s.link.restartTaken = true) ∨
        (s.link.requests ≠ [] ∧ s.link.requests.head? ≠ some ⟨kind, seq, body⟩)) →
        exec (commandOfFrame kind seq body) s =
          .next { s with
            link :=
              if s.link.requests.length < 4 then
                { s.link with requests := s.link.requests ++ [⟨kind, seq, body⟩] }
              else { s.link with overruns := min (s.link.overruns + 1) 65535 } }

/-- In a period, the head frame of the request queue is taken when the answer waiting is empty, no RESTART has been executed
and no device reset holds: what then happens is what the command with that frame does, which finds it at the head. Otherwise
no frame is taken. That a request command takes its frame in one step is the model's choice (log entry 4). -/
def Obligations.QueuedFrameTaken : Prop :=
  ∀ s : State,
    (∀ f rest, s.link.requests = f :: rest → s.hold = none → s.link.waiting = none → s.link.restartTaken = false →
      1 ≤ f.kind.toNat → f.kind.toNat ≤ 0x2F → f.body.length ≤ 512 →
        exec (commandOfFrame f.kind f.seq f.body) s = .next s.serveRequest) ∧
    (s.link.requests = [] ∨ s.hold ≠ none ∨ s.link.waiting ≠ none ∨ s.link.restartTaken = true → s.serveRequest = s)

/-! ### Link Controller -/

/-- HELLO, TIME-READ and LINES-READ are answered with what they report and change nothing. That a set member stands for
TIMED among the modes is DEDUCED (log entry 9). STATUS is answered with the fields of Table 10-4 as they stand; with the
clear flag the four link error counters are 0 afterwards, and nothing else changes. -/
def Obligations.ReadersReport : Prop :=
  (∀ (s : State) (seq : Byte),
    (Executes s (RequestKind.hello.frame seq []) →
      exec (.hello seq []) s =
        .next { s with link := s.link.answered (RequestKind.hello.okAnswer seq (.hello s.link.rate)) }) ∧
    (Executes s (RequestKind.timeRead.frame seq []) →
      exec (.timeRead seq []) s =
        .next { s with
          link := s.link.answered (RequestKind.timeRead.okAnswer seq
            (.timeRead s.timebase.count s.timebase.state s.timebase.source s.timebase.divider)) }) ∧
    (Executes s (RequestKind.linesRead.frame seq []) →
      ∃ v : LinesView,
        exec (.linesRead seq []) s =
          .next { s with link := s.link.answered (RequestKind.linesRead.okAnswer seq (.linesRead v)) } ∧
        v.halted = s.halt.causes.any ∧
        (∀ c : ChanIx, v.rawInputs.getLsbD c.val = (s.channel c).raw ∧
          v.filteredInputs.getLsbD c.val = (s.channel c).filtered) ∧
        ∀ n : LineIx,
          v.driven.getLsbD n.val =
            (if s.halt.causes.any then (s.line n).safe
            else if (s.line n).mode = .direct then (s.line n).direct
            else (s.line n).timed) ∧
          v.modes.getLsbD n.val = decide ((s.line n).mode = .timed) ∧ v.safe.getLsbD n.val = (s.line n).safe ∧
          v.direct.getLsbD n.val = (s.line n).direct ∧ v.timed.getLsbD n.val = (s.line n).timed)) ∧
  (∀ (s : State) (seq flag : Byte), Executes s (RequestKind.status.frame seq [flag]) →
    let view : StatusView :=
      { count := s.timebase.count, timebase := s.timebase.state, source := s.timebase.source
        halted := s.halt.causes.any, causes := s.halt.causes, stopEnable := s.halt.stopEnable
        stopFiltered := s.halt.stopFiltered
        free := s.entriesIn .free, waiting := s.entriesIn .waiting, pending := s.entriesIn .pending
        trailing := s.entriesIn .trailing, retired := s.entriesIn .retired
        freePlaces := 256 - ((List.finRange 16).map s.heldCount).sum
        reportState := s.reports.state, reportsQueued := s.reports.reports.length
        reportsSent := (s.reports.reports.filter Report.sent).length
        retries := s.reports.retries, nextSeq := s.reports.nextSeq
        framing := s.link.framing, gapAborts := s.link.gapAborts, crcErrors := s.link.crcErrors
        overruns := s.link.overruns, requestsQueued := s.link.requests.tail.length }
    let l := s.link.answered (RequestKind.status.okAnswer seq (.status view))
    (flag = 0 → exec (.status seq [flag]) s = .next { s with link := l }) ∧
    (flag = 1 → exec (.status seq [flag]) s =
      .next { s with link := { l with framing := 0, gapAborts := 0, crcErrors := 0, overruns := 0 } }) ∧
    (1 < flag.toNat → exec (.status seq [flag]) s = .next (s.refused .status seq .value)))

/-- RESTART is answered OK and recorded as executed, and in a state where one has been executed no period takes a frame
from the request queue. -/
def Obligations.RestartAnswered : Prop :=
  (∀ (s : State) (seq : Byte), Executes s (RequestKind.restart.frame seq []) →
    exec (.restart seq []) s =
      .next { s with link := { s.link.answered (RequestKind.restart.okAnswer seq .none) with restartTaken := true } }) ∧
  ∀ s : State, s.link.restartTaken = true → s.serveRequest = s

/-- The transmitter's choice: while SENDING or held in reset it chooses nothing; when IDLE it takes the answer waiting,
else the report the queue offers, which becomes sent and loses its resend mark, and whose taking stops the report timer
when it is the head; else nothing. That an answer goes first when both stand ready is R161; that the choice is one
step's is the model's (log entry 14). -/
def Obligations.TransmitterChoice : Prop :=
  ∀ s : State,
    (s.hold ≠ none ∨ s.link.tx ≠ none → s.transmitChoice = s) ∧
    (s.hold = none → s.link.tx = none →
      (∀ a, s.link.waiting = some a →
        s.transmitChoice = { s with link := { s.link with waiting := none, tx := some ⟨.answer a, 0⟩ } }) ∧
      (s.link.waiting = none →
        (∀ k r, s.reports.Offers k r →
          s.transmitChoice =
            { s with
              reports :=
                { s.reports with
                  reports := s.reports.reports.set k { r with sent := true, resend := false, onLine := true }
                  timer := if k = 0 then none else s.reports.timer }
              link := { s.link with tx := some ⟨.report r.seq r.content, 0⟩ } }) ∧
        ((∀ k r, ¬s.reports.Offers k r) → s.transmitChoice = s)))

/-- A frame on TX runs ten bit periods for each of its bytes, and ends, as TX_FRAME_END ends it, in the period that
completes them; meanwhile TX has the level of the bit that the elapsed periods reach: start bit low, data bits least
significant first, stop bit high. With no frame TX is high and the transmitter chooses. That a frame's first bit begins in
the period after its taking is DEDUCED (log entry 27). -/
def Obligations.FrameRunsOnTx : Prop :=
  ∀ s : State,
    (∀ f : TxFrame, s.link.tx = some f →
      let bit := s.link.rate.bitPeriod
      let total := 10 * bit * f.item.bytes.length
      (∀ n, f.elapsed + n < total →
        State.txPeriod^[n] s = { s with link := { s.link with tx := some { f with elapsed := f.elapsed + n } } }) ∧
      (∀ n, 1 ≤ n → f.elapsed + n = total → exec .txFrameEnd s = .next (State.txPeriod^[n] s)) ∧
      (∀ (k j : Nat) (b : Byte), f.item.bytes[k]? = some b → j < 10 → f.elapsed / bit = 10 * k + j →
        s.link.txLevel = if j = 0 then false else if j = 9 then true else b.getLsbD (j - 1))) ∧
    (s.link.tx = none → s.link.txLevel = true ∧ s.txPeriod = s.transmitChoice)

/-- The end of a frame on TX: the transmitter is free to choose again; the frame of the head report starts the report
timer in FLOWING; no report is on the line any more. The end of the answer to an executed RESTART begins the device
reset. That the transmitter chooses within the step is the model's choice (log entry 14). -/
def Obligations.FrameEnds : Prop :=
  ∀ (s : State) (f : TxFrame), s.link.tx = some f →
    (∀ a, f.item = .answer a → ¬(s.link.restartTaken = true ∧ a.kind = 0x83 ∧ a.status = .ok) →
      exec .txFrameEnd s = .next { s with link := { s.link with tx := none } }.transmitChoice) ∧
    (∀ n content, f.item = .report n content →
      exec .txFrameEnd s =
        .next ({ s with
          link := { s.link with tx := none }
          reports :=
            { s.reports with
              reports := s.reports.reports.map fun r => { r with onLine := false }
              timer :=
                if s.reports.state = .flowing ∧ ∃ r ∈ s.reports.reports.head?, r.onLine = true then
                  some (s.reports.timeout + 1)
                else s.reports.timer } } : State).transmitChoice) ∧
    (∀ a, f.item = .answer a → s.link.restartTaken = true → a.kind = 0x83 → a.status = .ok →
      exec .txFrameEnd s = .next (s.heldInReset .restart))

/-- The RX pin, sampled in a run of base-clock periods: while the receiver waits for a character with the line high, a fall
begins one; whatever the levels between, the data bits are those at the middles of the eight bit periods after the start
bit, the least significant first, and the stop bit is that at the middle of the tenth, where the character arrives at the
receiver. After a bad stop bit the line must be high before the next fall counts. Which period is a middle is DEDUCED (log
entry 15). -/
def Obligations.CharacterSampled : Prop :=
  (∀ (s : State) (levels : List Bool) (b : Byte) (stop : Bool),
    let bit := s.link.rate.bitPeriod
    s.link.rxSampler = .idle true → levels.length = 9 * bit + bit / 2 →
      (∀ k : Fin 8, levels[(k.val + 1) * bit + bit / 2 - 1]? = some (b.getLsbD k.val)) →
        levels.getLast? = some stop →
          rxRun (false :: levels) s =
            (s.setLink { s.link with
              rxRaw := stop, rxSampler := if stop then .idle true else .recover }).receive b stop) ∧
  (∀ (s : State) (level : Bool),
    let sampler := fun x : RxSampler => s.setLink { s.link with rxRaw := level, rxSampler := x }
    (∀ prior, s.link.rxSampler = .idle prior → (prior = false ∨ level = true) → rxRun [level] s = sampler (.idle level)) ∧
    (s.link.rxSampler = .recover → rxRun [level] s = sampler (if level then .idle true else .recover)))

/-! ### Report Queue -/

/-- ACK of a sent report: it and every older one leave the queue, the retry count is 0, the records of their batches
are free, and the report timer starts afresh when the new head is sent and not on the line; in SILENT the state returns
to FLOWING and the sent reports that remain are marked for resending. -/
def Obligations.AckAcknowledges : Prop :=
  ∀ (s : State) (seq n : Byte) (k : Nat) (r : Report),
    Executes s (RequestKind.ack.frame seq [n]) → ReportsOk s.reports →
      s.reports.reports[k]? = some r → r.seq = n → r.sent = true →
        let rest := s.reports.reports.drop (k + 1)
        let l := s.link.answered (RequestKind.ack.okAnswer seq (.count (k + 1)))
        (s.reports.state = .flowing →
          exec (.ack seq [n]) s =
            .next { s with
              link := l
              reports :=
                { s.reports with
                  reports := rest, retries := 0
                  timer :=
                    if ∃ r ∈ rest.head?, r.sent = true ∧ r.onLine = false then some (s.reports.timeout + 1)
                    else none } }) ∧
        (s.reports.state = .silent →
          exec (.ack seq [n]) s =
            .next { s with
              link := l
              reports :=
                { s.reports with
                  reports := rest.map fun r => if r.sent then { r with resend := true } else r
                  retries := 0, timer := none, state := .flowing } }) ∧
        ∀ t, exec (.ack seq [n]) s = .next t → ∀ c : ChanIx,
          t.heldCount c = s.heldCount c - (batchRecords (s.reports.reports.take (k + 1)) c).length

/-- ACK of a number that no sent report has: one of the 8 numbers before the base is stale and answered OK with count
0; any other is answered VALUE. Neither changes anything. -/
def Obligations.AckStaleOrRefused : Prop :=
  ∀ (s : State) (seq n : Byte), Executes s (RequestKind.ack.frame seq [n]) →
    (∀ r ∈ s.reports.reports, ¬(r.seq = n ∧ r.sent = true)) →
      let base := (s.reports.reports.head?.map Report.seq).getD s.reports.nextSeq
      (1 ≤ (base - n).toNat ∧ (base - n).toNat ≤ 8 →
        exec (.ack seq [n]) s =
          .next { s with link := s.link.answered (RequestKind.ack.okAnswer seq (.count 0)) }) ∧
      (¬(1 ≤ (base - n).toNat ∧ (base - n).toNat ≤ 8) →
        exec (.ack seq [n]) s = .next (s.refused .ack seq .value))

/-- REPORTS-ON: in SILENT it returns to FLOWING with the retry count at 0, the timer stopped and every sent report
marked; in FLOWING it changes nothing; a body of one byte or more is answered FORMAT. -/
def Obligations.ReportsOnRevives : Prop :=
  ∀ (s : State) (seq : Byte) (body : List Byte), body.length ≤ 512 →
    Executes s (RequestKind.reportsOn.frame seq body) →
      let l := s.link.answered (RequestKind.reportsOn.okAnswer seq (.reportsOn .flowing s.reports.reports.length))
      (body ≠ [] → exec (.reportsOn seq body) s = .next (s.refused .reportsOn seq .format)) ∧
      (body = [] → s.reports.state = .silent →
        exec (.reportsOn seq body) s =
          .next { s with
            link := l
            reports :=
              { s.reports with
                reports := s.reports.reports.map fun r => if r.sent then { r with resend := true } else r
                retries := 0, timer := none, state := .flowing } }) ∧
      (body = [] → s.reports.state = .flowing → exec (.reportsOn seq body) s = .next { s with link := l })

/-- LINK-SETUP stores its three values together, or is answered VALUE and stores none. -/
def Obligations.LinkSetupStores : Prop :=
  ∀ (s : State) (seq t0 t1 limit hos : Byte), Executes s (RequestKind.linkSetup.frame seq [t0, t1, limit, hos]) →
    let timeout := t0.toNat + 256 * t1.toNat
    (timeout < 5 ∨ 1000 < timeout ∨ 15 < limit.toNat ∨ 1 < hos.toNat →
      exec (.linkSetup seq [t0, t1, limit, hos]) s = .next (s.refused .linkSetup seq .value)) ∧
    (5 ≤ timeout → timeout ≤ 1000 → limit.toNat ≤ 15 → hos.toNat ≤ 1 →
      exec (.linkSetup seq [t0, t1, limit, hos]) s =
        .next { s with
          reports :=
            { s.reports with timeout := timeout, retryLimit := limit.toNat, haltOnSilence := decide (hos = 1) }
          link := s.link.answered (RequestKind.linkSetup.okAnswer seq
            (.linkSetup timeout limit.toNat (decide (hos = 1)))) })

/-- LINK-RESET empties the Report Queue: the records of its batches return to the head of their channels' lists in
order, their lost counts are added back, the notices are discarded, the counts start from 0 and the state is FLOWING;
its answer is the one entry of the cache. -/
def Obligations.LinkResetReturns : Prop :=
  ∀ (s : State) (seq : Byte), Executes s (RequestKind.linkReset.frame seq []) →
    let reports := s.reports.reports
    let records : Nat := (reports.map fun r =>
      match r.content with
      | .batch _ _ recs => recs.length
      | _ => 0).sum
    let batches := (reports.filter fun r => r.content.isBatch).length
    exec (.linkReset seq []) s =
      .next { s with
        channels := Vector.ofFn fun c : ChanIx =>
          let ch := s.channel c
          let back := batchRecords reports c
          { ch with
            unreported := back ++ ch.unreported
            lost := min (ch.lost + batchLost reports c) 65535
            lingerTimer :=
              if back ≠ [] ∧ ch.unreported = [] ∧ ch.setup.linger ≠ 0 then some (ch.setup.linger + 1)
              else ch.lingerTimer }
        reports :=
          { s.reports with reports := [], nextSeq := 0, timer := none, retries := 0, state := .flowing }
        link := { s.link with cache := [] }.answered
          (RequestKind.linkReset.okAnswer seq (.linkReset (reports.length - batches) batches records)) }

/-! ### Timebase -/

/-- TIME-SETUP sets the source and the divider and puts the prescale phase at 0; it is refused while RUNNING or while
an entry is live, for a source code other than 0 and 1 or a divider of 0, and for a body of the wrong length. -/
def Obligations.TimeSetupSets : Prop :=
  ∀ (s : State) (seq : Byte) (body : List Byte), body.length ≤ 512 →
    Executes s (RequestKind.timeSetup.frame seq body) →
      (body.length ≠ 3 → exec (.timeSetup seq body) s = .next (s.refused .timeSetup seq .format)) ∧
      ∀ src lo hi, body = [src, lo, hi] →
        let divider := lo.toNat + 256 * hi.toNat
        (1 < src.toNat ∨ divider = 0 →
          exec (.timeSetup seq body) s = .next (s.refused .timeSetup seq .value)) ∧
        (src.toNat ≤ 1 → 0 < divider → s.timebase.state = .running ∨ LiveEntry s →
          exec (.timeSetup seq body) s = .next (s.refused .timeSetup seq .state)) ∧
        (src.toNat ≤ 1 → 0 < divider → s.timebase.state = .stopped → ¬LiveEntry s →
          exec (.timeSetup seq body) s =
            .next { s with
              timebase :=
                { s.timebase with
                  source := if src = 0 then .internal else .external, divider := divider, prescale := 0 }
              link := s.link.answered (RequestKind.timeSetup.okAnswer seq .none) })

/-- TIME-SET loads the count and restarts every channel's interval reference; it is refused while RUNNING or while an
entry is live, and for a body of the wrong length. -/
def Obligations.TimeSetLoads : Prop :=
  ∀ (s : State) (seq : Byte) (body : List Byte), body.length ≤ 512 →
    Executes s (RequestKind.timeSet.frame seq body) →
      (body.length ≠ 4 → exec (.timeSet seq body) s = .next (s.refused .timeSet seq .format)) ∧
      ∀ b0 b1 b2 b3, body = [b0, b1, b2, b3] →
        (s.timebase.state = .running ∨ LiveEntry s →
          exec (.timeSet seq body) s = .next (s.refused .timeSet seq .state)) ∧
        (s.timebase.state = .stopped → ¬LiveEntry s →
          exec (.timeSet seq body) s =
            .next { s with
              timebase := { s.timebase with count := b3 ++ b2 ++ b1 ++ b0 }
              channels := s.channels.map fun ch => { ch with reference := none }
              link := s.link.answered (RequestKind.timeSet.okAnswer seq .none) })

/-- TIME-RUN starts a STOPPED count with the prescale phase at 0 and restarts the interval references; a RUNNING one
goes on undisturbed; a body that is not empty is answered FORMAT. TIME-STOP stops a RUNNING count and discards the
prescale phase; a STOPPED timebase is left as it is; a body that is not empty is answered FORMAT. -/
def Obligations.TimeRunAndStop : Prop :=
  (∀ (s : State) (seq : Byte) (body : List Byte), body.length ≤ 512 →
      Executes s (RequestKind.timeRun.frame seq body) →
        let l := s.link.answered (RequestKind.timeRun.okAnswer seq (.tick s.timebase.count))
        (body ≠ [] → exec (.timeRun seq body) s = .next (s.refused .timeRun seq .format)) ∧
        (body = [] → s.timebase.state = .stopped →
          exec (.timeRun seq body) s =
            .next { s with
              timebase := { s.timebase with state := .running, prescale := 0 }
              channels := s.channels.map fun ch => { ch with reference := none }
              link := l }) ∧
        (body = [] → s.timebase.state = .running → exec (.timeRun seq body) s = .next { s with link := l })) ∧
  (∀ (s : State) (seq : Byte) (body : List Byte), body.length ≤ 512 →
      Executes s (RequestKind.timeStop.frame seq body) →
        let l := s.link.answered (RequestKind.timeStop.okAnswer seq (.tick s.timebase.count))
        (body ≠ [] → exec (.timeStop seq body) s = .next (s.refused .timeStop seq .format)) ∧
        (body = [] → s.timebase.state = .running →
          exec (.timeStop seq body) s =
            .next { s with timebase := { s.timebase with state := .stopped, prescale := 0 }, link := l }) ∧
        (body = [] → s.timebase.state = .stopped → exec (.timeStop seq body) s = .next { s with link := l }))

/-- A tick of the source in use, while RUNNING, advances the count by one, modulo 2^32, and serves the Due List, heads
first; an internal one puts the prescale phase at 0. A tick of the other source, or while STOPPED, does not count (log entry
1). CNT is sampled in every period, and a sample at high that follows one at low is a rising edge. With the head of the
list not reached nothing is served. The bound on the heads taken is the list's length, DEDUCED (log entry 11): what one
head taken does is said by the statements about due times. -/
def Obligations.TickAdvances : Prop :=
  (∀ s : State,
    let sampled := { s.timebase with cntRaw := true, cntSample := some true }
    (s.timebase.state = .running → s.timebase.source = .internal →
      exec .internalTick s = .next (State.serveDue s.dueList.length s.ticked)) ∧
    (s.hold = none → s.timebase.state = .running → s.timebase.source = .external →
      exec .cntRisingEdge s =
        .next (State.serveDue s.dueList.length
          { s with timebase := { sampled with count := s.timebase.count + 1 } })) ∧
    (s.timebase.state = .stopped ∨ s.timebase.source = .external → exec .internalTick s = .next s) ∧
    (s.hold = none → s.timebase.state = .stopped ∨ s.timebase.source = .internal →
      exec .cntRisingEdge s = .next { s with timebase := sampled })) ∧
  (∀ s : State, s.hold = none →
    let edge := s.timebase.cntRaw = true ∧ s.timebase.cntSample = some false
    (edge → exec .cntRisingEdge s = .next s.cntPeriod) ∧
    (¬edge → s.cntPeriod = { s with timebase := { s.timebase with cntSample := some s.timebase.cntRaw } })) ∧
  (∀ (u : State) (n : Nat),
    (∀ i ∈ u.dueList.head?, ∀ d, u.dueOf i = some d → reached u.timebase.count d = false) → State.serveDue n u = u)

/-- Internal ticks fall every `divider` periods: the phase counts the periods before the last and nothing else changes; the
last is the internal tick itself, with all it serves on the Due List, and with nothing on the list it only advances the
count. While STOPPED, and with source EXTERNAL, a period changes nothing of this. The millisecond clock steps once in every 24,000 periods, and a step
reaches the gap timer, the report timer and the sixteen linger timers: a timer started for N milliseconds runs through N
steps and expires at the next one, and its expiry is the event of that timer. That a timer of N milliseconds has N + 1 steps
to go at its start is DEDUCED (log entry 23). -/
def Obligations.TicksAndTimers : Prop :=
  (∀ (s : State) (n : Nat), s.timebase.state = .running → s.timebase.source = .internal →
      s.timebase.prescale < s.timebase.divider →
        (s.timebase.prescale + n < s.timebase.divider →
          State.prescalePeriod^[n] s =
            { s with timebase := { s.timebase with prescale := s.timebase.prescale + n } }) ∧
        (s.timebase.prescale + n = s.timebase.divider →
          exec .internalTick s = .next (State.prescalePeriod^[n] s) ∧
            (s.dueList = [] → State.prescalePeriod^[n] s = s.ticked))) ∧
  (∀ s : State, s.timebase.state = .stopped ∨ s.timebase.source = .external → s.prescalePeriod = s) ∧
  (∀ (s : State) (n : Nat), s.timebase.msPhase < 24000 →
      (s.timebase.msPhase + n < 24000 →
        State.msPeriod^[n] s = { s with timebase := { s.timebase with msPhase := s.timebase.msPhase + n } }) ∧
      (s.timebase.msPhase + n = 24000 →
        State.msPeriod^[n] s =
          (List.finRange 16).foldl State.stepLinger
            ({ s with timebase := { s.timebase with msPhase := 0 } } : State).stepGap.stepReportTimer)) ∧
  (∀ (s : State) (c : ChanIx) (k : Nat),
      (s.link.gapTimer = none → s.stepGap = s) ∧
      (s.link.gapTimer = some (k + 2) → s.stepGap = { s with link := { s.link with gapTimer := some (k + 1) } }) ∧
      (s.link.gapTimer = some 1 → s.link.receiver ≠ .hunt → exec .gapAbort s = .next s.stepGap) ∧
      (s.reports.timer = none → s.stepReportTimer = s) ∧
      (s.reports.timer = some (k + 2) →
        s.stepReportTimer = { s with reports := { s.reports with timer := some (k + 1) } }) ∧
      (s.reports.timer = some 1 → exec .reportTimerExpiry s = .next s.stepReportTimer.transmitChoice) ∧
      ((s.channel c).lingerTimer = none → s.stepLinger c = s) ∧
      ((s.channel c).lingerTimer = some (k + 2) →
        s.stepLinger c = s.setChannel c { s.channel c with lingerTimer := some (k + 1) }) ∧
      ((s.channel c).lingerTimer = some 1 → exec (.lingerExpiry c) s = .next (s.stepLinger c))) ∧
  (∀ n k : Nat, 1 ≤ n → k ≤ n →
      (fun t => (stepTimer t).2)^[k] (startTimer n) = some (n + 1 - k) ∧
        (stepTimer ((fun t => (stepTimer t).2)^[k] (startTimer n))).1 = decide (k = n))

/-! ### Timeline: placing and reading -/

/-- PLACE of a start that is not reached: the lowest FREE entry takes the record, PENDING at the start time (AT) or at
the count plus the delay (AFTER) and inserted on the Due List behind every entry as near or nearer, or WAITING (ON).
Nothing else changes, and the answer shows the entry. -/
def Obligations.PlaceAhead : Prop :=
  ∀ (s : State) (seq : Byte) (p : Plan) (i : EntryIx),
    p.InRange → Executes s (RequestKind.place.frame seq p.body) → DueListOk s → (s.line p.line).mode = .timed →
      LowestFree s i →
        let pending := fun due : Tick =>
          ∃ after, InsertedAt s s.dueList i (distance s.timebase.count due) after ∧
            exec (.place seq p.body) s =
              .next { s.setEntry i (some ⟨p, .pending due p.firstRemaining, none, .empty⟩) with
                dueList := after
                link := s.link.answered (RequestKind.place.okAnswer seq
                  (.place i .pending (some due) (some p.firstRemaining) false 0)) }
        (∀ time late, p.start = .atTime time late → reached s.timebase.count time = false → pending time) ∧
        (∀ d, p.start = .afterDelay d → pending (s.timebase.count + d)) ∧
        (∀ c sense d arms, p.start = .onTrigger c sense d arms → (s.channel c).setup.mode ≠ .off →
          exec (.place seq p.body) s =
            .next { s.setEntry i
                (some ⟨p, .waiting, some (if arms = 0 then .unlimited else .number arms), .empty⟩) with
              link := s.link.answered (RequestKind.place.okAnswer seq (.place i .waiting none none false 0)) })

/-- PLACE of an AT start that is reached, with FIRE. The timeline RUNNING: the series begins late on its grid, and the
answer shows the entry, late, with the grid points skipped. The timeline HALTED: nothing is performed; the first occurrence
and the skipped grid points are missed; the entry is PENDING at the first grid point ahead while occurrences remain, and its
life ends with the outcome MISSED when none do. -/
def Obligations.PlaceLate : Prop :=
  ∀ (s : State) (seq : Byte) (p : Plan) (i : EntryIx) (time : Tick) (k taken : Nat),
    p.InRange → Executes s (RequestKind.place.frame seq p.body) → DueListOk s → (s.line p.line).mode = .timed →
      LowestFree s i → p.start = .atTime time .fire → reached s.timebase.count time = true →
        CatchesUp p s.timebase.count time k taken →
          let now := s.timebase.count
          let left := p.firstRemaining.less taken
          let due := fun r : Repeat => time + BitVec.ofNat 32 (k * r.period.toNat)
          let answer := fun (st : EntryState) (due : Option Tick) (remaining : Option Quantity) (late : Bool) (missed : Nat) =>
            s.link.answered (RequestKind.place.okAnswer seq (.place i st due remaining late missed))
          (s.halt.causes.any = false →
            ∃ t, exec (.place seq p.body) s = .next t ∧
              BeginsLate s t i ⟨p, .waiting, none, .empty⟩ time true k taken ∧
              (∀ w, p.action.width = some w → reached now (time + w) = false →
                t.link = answer .trailing (some (time + w)) (some left) true 0) ∧
              ((∀ w, p.action.width = some w → reached now (time + w) = true) →
                (∀ r, p.rep = some r → left.positive = true →
                  t.link = answer .pending (some (due r)) (some left) true (taken - 1)) ∧
                (left.positive = false →
                  t.link = answer (if p.final then .retired else .free) none none true (taken - 1)))) ∧
          (s.halt.causes.any = true →
            let e := (⟨p, .waiting, none, .empty⟩ : Entry).account (.missed taken) now (some left)
            (∀ r, p.rep = some r → left.positive = true →
              ∃ after, InsertedAt s s.dueList i (distance now (due r)) after ∧
                exec (.place seq p.body) s =
                  .next { s.setEntry i (some { e with progress := .pending (due r) left }) with
                    dueList := after, link := answer .pending (some (due r)) (some left) false taken }) ∧
            (left.positive = false →
              exec (.place seq p.body) s =
                .next { s.setEntry i (e.endLife .missed now (some (.number 0))) with
                  link := answer (if p.final then .retired else .free) none none false taken }))

/-- PLACE is refused in the order of Table 2-3: a body whose length or presence of fields does not fit fails FORMAT, one
that fits and is no plan in range fails VALUE, then a DIRECT line fails LINE, an OFF trigger channel STATE, a full
table ROOM, and a reached AT start with REFUSE fails LATE. Nothing changes but the link. -/
def Obligations.PlaceRefused : Prop :=
  ∀ (s : State) (seq : Byte),
    (∀ body : List Byte, body.length ≤ 512 → Executes s (RequestKind.place.frame seq body) →
      (placeFits body = false → exec (.place seq body) s = .next (s.refused .place seq .format)) ∧
      (placeFits body = true → (∀ p : Plan, p.InRange → body ≠ p.body) →
        exec (.place seq body) s = .next (s.refused .place seq .value))) ∧
    ∀ p : Plan, p.InRange → Executes s (RequestKind.place.frame seq p.body) →
      let off := ∃ c sense d arms, p.start = .onTrigger c sense d arms ∧ (s.channel c).setup.mode = .off
      ((s.line p.line).mode = .direct → exec (.place seq p.body) s = .next (s.refused .place seq .line)) ∧
      ((s.line p.line).mode = .timed → off → exec (.place seq p.body) s = .next (s.refused .place seq .state)) ∧
      ((s.line p.line).mode = .timed → ¬off → (∀ i, s.entry i ≠ none) →
        exec (.place seq p.body) s = .next (s.refused .place seq .room)) ∧
      ((s.line p.line).mode = .timed → (∃ i, s.entry i = none) →
        ∀ time, p.start = .atTime time .refuse → reached s.timebase.count time = true →
          exec (.place seq p.body) s = .next (s.refused .place seq .late))

/-- ENTRY-QUERY answers with the record of its index, NONE for a FREE entry and VALUE above 63; ENTRY-LIST lists the
entries that are not FREE from its index upward, at most 16, with the index after the last one when more may follow.
Neither changes the table. -/
def Obligations.EntriesRead : Prop :=
  ∀ (s : State) (seq b : Byte),
    (Executes s (RequestKind.entryQuery.frame seq [b]) →
      (63 < b.toNat → exec (.entryQuery seq [b]) s = .next (s.refused .entryQuery seq .value)) ∧
      ∀ i : EntryIx, i.val = b.toNat →
        (s.entry i = none → exec (.entryQuery seq [b]) s = .next (s.refused .entryQuery seq .none)) ∧
        ∀ e, s.entry i = some e →
          exec (.entryQuery seq [b]) s =
            .next { s with link := s.link.answered (RequestKind.entryQuery.okAnswer seq (.entryQuery i e)) }) ∧
    (Executes s (RequestKind.entryList.frame seq [b]) →
      (63 < b.toNat → exec (.entryList seq [b]) s = .next (s.refused .entryList seq .value)) ∧
      (b.toNat ≤ 63 →
        let used := (List.finRange 64).filter fun i => decide (b.toNat ≤ i.val) && (s.entry i).isSome
        let listed := (used.take 16).filterMap fun i =>
          (s.entry i).map fun e => (⟨i, e.progress.state, e.plan.tag, e.plan.line, e.progress.due⟩ : ListedEntry)
        ∃ next : Option EntryIx,
          exec (.entryList seq [b]) s =
            .next { s with
              link := s.link.answered (RequestKind.entryList.okAnswer seq (.entryList listed next)) } ∧
          (∀ i : EntryIx, next = some i ↔
            listed.length = 16 ∧ ∃ l ∈ listed.getLast?, l.index.val + 1 = i.val)))

/-! ### Timeline: cancelling and clearing -/

/-- CANCEL, by index or by tag: every live entry it names is ended with the outcome CANCELLED when WAITING or PENDING,
and given the cancel flag when TRAILING; the answer counts both; no line is touched; with none named it is answered
NONE. An index above 63 is answered VALUE, and a selector that is none or does not fit the length FORMAT. That the arms left
of an entry cancelled from WAITING keep their value in its RETIRED record is the model's choice (log entry 30). -/
def Obligations.CancelEndsTheMatched : Prop :=
  (∀ (s : State) (seq : Byte) (body : List Byte), Executes s (RequestKind.cancel.frame seq body) →
    ((∃ b : Byte, 63 < b.toNat ∧ body = [0, b]) → exec (.cancel seq body) s = .next (s.refused .cancel seq .value)) ∧
    ((∃ sel b : Byte, sel ≠ 0 ∧ body = [sel, b]) ∨ (∃ sel lo hi : Byte, sel ≠ 1 ∧ body = [sel, lo, hi]) →
      exec (.cancel seq body) s = .next (s.refused .cancel seq .format))) ∧
  ∀ (s : State) (seq : Byte) (body : List Byte) (named : EntryIx → Entry → Bool),
    Executes s (RequestKind.cancel.frame seq body) →
      ((∃ b : Byte, b.toNat < 64 ∧ body = [0, b] ∧ ∀ i e, named i e = decide (i.val = b.toNat)) ∨
        ∃ lo hi : Byte, body = [1, lo, hi] ∧ ∀ i e, named i e = decide (e.plan.tag = hi ++ lo)) →
        let matched := fun i : EntryIx =>
          match s.entry i with
          | none => false
          | some e => decide (e.progress ≠ .retired) && named i e
        let trailing := fun i : EntryIx => decide (entryState (s.entry i) = .trailing)
        ((∀ i, matched i = false) → exec (.cancel seq body) s = .next (s.refused .cancel seq .none)) ∧
        ((∃ i, matched i = true) →
          exec (.cancel seq body) s =
            .next { s with
              entries := Vector.ofFn fun i : EntryIx =>
                match s.entry i with
                | none => none
                | some e =>
                  if matched i then
                    match e.progress with
                    | .waiting => e.endLife .cancelled s.timebase.count none
                    | .pending _ remaining => e.endLife .cancelled s.timebase.count (some remaining)
                    | .trailing due lead remaining _ =>
                      some { e with progress := .trailing due lead remaining true }
                    | .retired => some e
                  else some e
              dueList := s.dueList.filter fun i => !(matched i && !trailing i)
              link := s.link.answered (RequestKind.cancel.okAnswer seq
                (.cancel ((List.finRange 64).countP fun i => matched i && !trailing i)
                  ((List.finRange 64).countP fun i => matched i && trailing i))) })

/-- TIMELINE-CLEAR frees every entry and empties the Due List; while RUNNING it first performs the trailing action of
every TRAILING entry on the list, in list order; it answers with the number of entries that were not FREE. A body that
is not empty is answered FORMAT. -/
def Obligations.TimelineClearFrees : Prop :=
  ∀ (s : State) (seq : Byte) (body : List Byte), body.length ≤ 512 →
    Executes s (RequestKind.timelineClear.frame seq body) →
      (body ≠ [] → exec (.timelineClear seq body) s = .next (s.refused .timelineClear seq .format)) ∧
      (body = [] →
        let trailingLevel := fun (n : LineIx) (i : EntryIx) =>
          match s.entry i with
          | none => none
          | some e =>
            match e.progress, e.plan.action with
            | .trailing _ _ _ _, .pulseHigh _ => if e.plan.line = n then some false else none
            | .trailing _ _ _ _, .pulseLow _ => if e.plan.line = n then some true else none
            | _, _ => none
        exec (.timelineClear seq body) s =
          .next { s with
            entries := Vector.replicate 64 none
            dueList := []
            lines :=
              if s.halt.causes.any then s.lines
              else
                Vector.ofFn fun n : LineIx =>
                  { s.line n with
                    timed := ((s.dueList.filterMap (trailingLevel n)).getLast?).getD (s.line n).timed }
            link := s.link.answered (RequestKind.timelineClear.okAnswer seq
              (.count (s.entries.toList.countP Option.isSome))) })

/-! ### Timeline: due times and triggers -/

/-- A due time of a PENDING entry taken from the head of the Due List at an advance of the count, of either source, while
RUNNING: the single or the leading action is applied to the line, the occurrence is accounted fired, remaining falls. A
pulse is TRAILING with the due time as its lead and its trailing due time a width on. A single action leaves the entry
PENDING one period on while occurrences remain, WAITING when none do and arms are left, and its life ends DONE otherwise. An
entry that takes a due time stands behind every entry as near. Nothing else changes, and the heads behind it are taken next,
in list order. That the event merges no remaining when the entry is WAITING after it is DEDUCED (log entry 10). -/
def Obligations.DueActionServed : Prop :=
  ∀ (u : State) (i : EntryIx) (rest : List EntryIx) (e : Entry) (due : Tick) (remaining : Quantity) (n : Nat),
    HeadTaken u i rest e due → u.halt.causes.any = false → e.progress = .pending due remaining →
      let now := u.timebase.count
      let left := remaining.less 1
      let fired := fun shown : Option Quantity => e.account (.fired false) now shown
      let v := u.setLine e.plan.line
        { u.line e.plan.line with timed := e.plan.action.leading.apply (u.line e.plan.line).timed }
      (∀ w, e.plan.action.width = some w →
        ∃ after, InsertedAt u rest i (distance now (due + w)) after ∧
          State.serveDue (n + 1) u =
            State.serveDue n { v.setEntry i (some { fired (some left) with
              progress := .trailing (due + w) due left false }) with dueList := after }) ∧
      (e.plan.action.width = none →
        (∀ r, e.plan.rep = some r → left.positive = true →
          ∃ after, InsertedAt u rest i (distance now (due + r.period)) after ∧
            State.serveDue (n + 1) u =
              State.serveDue n { v.setEntry i (some { fired (some left) with
                progress := .pending (due + r.period) left }) with dueList := after }) ∧
        (left.positive = false → e.armed = true →
          State.serveDue (n + 1) u =
            State.serveDue n { v.setEntry i (some { fired none with progress := .waiting }) with dueList := rest }) ∧
        (left.positive = false → e.armed = false →
          State.serveDue (n + 1) u =
            State.serveDue n { v.setEntry i ((fired (some left)).endLife .done now (some (.number 0))) with
              dueList := rest }))

/-- A trailing due time taken from the head of the Due List at an advance of the count, of either source, while RUNNING: the
trailing action is applied and nothing is accounted; with the cancel flag the life ends CANCELLED; else the entry is PENDING
a period after its lead while occurrences remain, WAITING when none do and arms are left, and its life ends DONE
otherwise. The heads behind it are taken next, in list order. -/
def Obligations.TrailingActionServed : Prop :=
  ∀ (u : State) (i : EntryIx) (rest : List EntryIx) (e : Entry) (due lead : Tick) (remaining : Quantity)
    (cancelled : Bool) (a : LevelAction) (n : Nat),
    HeadTaken u i rest e due → u.halt.causes.any = false → e.progress = .trailing due lead remaining cancelled →
      e.plan.action.trailing = some a →
        let now := u.timebase.count
        let v := u.setLine e.plan.line { u.line e.plan.line with timed := a.apply (u.line e.plan.line).timed }
        let goesOn := fun (record : Option Entry) (list : List EntryIx) =>
          State.serveDue (n + 1) u = State.serveDue n { v.setEntry i record with dueList := list }
        (cancelled = true → goesOn (e.endLife .cancelled now (some remaining)) rest) ∧
        (cancelled = false → ∀ r, e.plan.rep = some r → remaining.positive = true →
          ∃ after, InsertedAt u rest i (distance now (lead + r.period)) after ∧
            goesOn (some { e with progress := .pending (lead + r.period) remaining }) after) ∧
        (cancelled = false → remaining.positive = false → e.armed = true →
          goesOn (some { e with progress := .waiting }) rest) ∧
        (cancelled = false → remaining.positive = false → e.armed = false →
          goesOn (e.endLife .done now (some (.number 0))) rest)

/-- A due time of a PENDING entry taken from the head of the Due List at an advance of the count, of either source, while
HALTED: no line changes; the occurrence is accounted missed and remaining falls; the entry is PENDING one period on while
occurrences remain, WAITING when none do and arms are left, and its life ends MISSED otherwise. The heads behind it are
taken next, in list order. That the event merges no remaining when the entry is WAITING after it is DEDUCED (log entry
10). -/
def Obligations.DueMissedWhileHalted : Prop :=
  ∀ (u : State) (i : EntryIx) (rest : List EntryIx) (e : Entry) (due : Tick) (remaining : Quantity) (n : Nat),
    HeadTaken u i rest e due → u.halt.causes.any = true → e.progress = .pending due remaining →
      let now := u.timebase.count
      let left := remaining.less 1
      let missed := fun shown : Option Quantity => e.account (.missed 1) now shown
      let goesOn := fun (record : Option Entry) (list : List EntryIx) =>
        State.serveDue (n + 1) u = State.serveDue n { u.setEntry i record with dueList := list }
      (∀ r, e.plan.rep = some r → left.positive = true →
        ∃ after, InsertedAt u rest i (distance now (due + r.period)) after ∧
          goesOn (some { missed (some left) with progress := .pending (due + r.period) left }) after) ∧
      (left.positive = false → e.armed = true → goesOn (some { missed none with progress := .waiting }) rest) ∧
      (left.positive = false → e.armed = false →
        goesOn ((missed (some left)).endLife .missed now (some (.number 0))) rest)

/-- What an event adds to an entry's notice and what the end of a life makes of it: with EACH the notice is pending,
with END alone collecting, with neither nothing is merged; the counts saturate at 65,535; with END the ended entry is
RETIRED with its final notice pending, without it the entry is FREE. -/
def Obligations.NoticesMerge : Prop :=
  ∀ (e : Entry) (now : Tick) (remaining : Option Quantity) (outcome : FinalOutcome) (late : Bool) (m : Nat),
    let n := e.slot.notice.getD ⟨false, false, false, false, 0, 0, 0, 0, none, none⟩
    let slot := fun n' : EntryNotice =>
      if e.plan.each then EntrySlot.pending n' else if e.plan.final then .collecting n' else e.slot
    e.account (.fired late) now remaining =
        { e with
          slot := slot { n with
            fired := true, late := n.late || late, firedCount := min (n.firedCount + 1) 65535, lastTick := now
            remaining := remaining } } ∧
      e.account (.missed m) now remaining =
        { e with
          slot := slot { n with
            missed := true, missedCount := min (n.missedCount + m) 65535, lastTick := now, remaining := remaining } } ∧
      e.account .overrun now remaining =
        { e with
          slot := slot { n with
            overrun := true, overrunCount := min (n.overrunCount + 1) 65535, lastTick := now
            remaining := remaining } } ∧
      e.accountMisses m now remaining = (if m = 0 then e else e.account (.missed m) now remaining) ∧
      e.endLife outcome now remaining =
        if e.plan.final then
          some { e with
            progress := .retired
            slot := .pending { n with outcome := some outcome, lastTick := now, remaining := remaining } }
        else none

/-- An accepted edge is offered, while the timebase is RUNNING, to the entries one by one in index order, lowest first;
while it is STOPPED to none. An entry that is FREE or RETIRED, or names another channel or a sense that does not match, is
left alone. A matching one: WAITING and the timeline RUNNING, it uses an arm and is PENDING at stamp plus delay when that is
not reached, and begins late when it is, accounted late when the delay is above 0; WAITING and HALTED, it misses the trigger;
PENDING or TRAILING, it overruns. -/
def Obligations.TriggerOffered : Prop :=
  ∀ (u : State) (c : ChanIx) (edge : Edge) (stamp : Tick),
    (u.timebase.state = .stopped → u.offerTrigger c edge stamp = u) ∧
    (u.timebase.state = .running →
      u.offerTrigger c edge stamp = (List.finRange 64).foldl (State.offerEdge c edge stamp) u) ∧
    (∀ i : EntryIx,
      let t := State.offerEdge c edge stamp u i
      let matched := fun e : Entry => ∃ sense delay arms, e.plan.start = .onTrigger c sense delay arms ∧
        (sense = .any ∨ (sense = .rise ∧ edge = .rise) ∨ (sense = .fall ∧ edge = .fall))
      ((∀ e, u.entry i = some e → ¬matched e ∨ e.progress = .retired) → t = u) ∧
      ∀ e, u.entry i = some e → matched e →
        let now := u.timebase.count
        let served := { e with armsLeft := e.armsLeft.map fun q : Quantity => q.less 1 }
        (∀ sense delay arms, e.plan.start = .onTrigger c sense delay arms → e.progress = .waiting →
          u.halt.causes.any = false → DueListOk u →
            (reached now (stamp + delay) = false →
              ∃ after, InsertedAt u u.dueList i (distance now (stamp + delay)) after ∧
                t = { u.setEntry i (some { served with
                  progress := .pending (stamp + delay) e.plan.firstRemaining }) with dueList := after }) ∧
            (reached now (stamp + delay) = true → ∀ k taken, CatchesUp e.plan now (stamp + delay) k taken →
              BeginsLate u t i served (stamp + delay) (decide (delay ≠ 0)) k taken ∧ t.link = u.link)) ∧
        (e.progress = .waiting → u.halt.causes.any = true → i ∉ u.dueList →
          let missed := served.account (.missed 1) now none
          t = u.setEntry i (if served.armed then some missed else missed.endLife .missed now none)) ∧
        (∀ due remaining, e.progress = .pending due remaining →
          t = u.setEntry i (some (e.account .overrun now (some remaining)))) ∧
        (∀ due lead remaining cancelled, e.progress = .trailing due lead remaining cancelled →
          t = u.setEntry i (some (e.account .overrun now (some remaining)))))

/-! ### Output Stage -/

/-- LINE-SETUP stores the safe level, then applies the mode, so that the pin does not move but for a new safe level
while HALTED; a change to DIRECT is answered STATE while a live entry names the line, and a field out of range VALUE. -/
def Obligations.LineSetupApplied : Prop :=
  ∀ (s : State) (seq lb mb vb : Byte), Executes s (RequestKind.lineSetup.frame seq [lb, mb, vb]) →
    (15 < lb.toNat ∨ 1 < mb.toNat ∨ 1 < vb.toNat →
      exec (.lineSetup seq [lb, mb, vb]) s = .next (s.refused .lineSetup seq .value)) ∧
    ∀ n : LineIx, n.val = lb.toNat → mb.toNat ≤ 1 → vb.toNat ≤ 1 →
      let old := s.line n
      let halted := s.halt.causes.any
      let safe := decide (vb = 1)
      let mode : LineMode := if mb = 0 then .direct else .timed
      let driven := if halted then safe else s.drivenLevel n
      (mode = .direct → old.mode = .timed → LineClaimed s n →
        exec (.lineSetup seq [lb, mb, vb]) s = .next (s.refused .lineSetup seq .state)) ∧
      (¬(mode = .direct ∧ old.mode = .timed ∧ LineClaimed s n) →
        exec (.lineSetup seq [lb, mb, vb]) s =
          .next { s.setLine n
              { mode := mode, safe := safe
                direct := if mode = .direct ∧ old.mode = .timed then driven else old.direct
                timed :=
                  if old.mode = .timed then (if halted then safe else old.timed)
                  else if mode = .timed then driven
                  else old.timed } with
            link := s.link.answered (RequestKind.lineSetup.okAnswer seq (.lineSetup mode safe driven)) })

/-- LINE-WRITE sets the direct levels of the lines its mask names and leaves the others; it is answered FORMAT, HALTED
or LINE, in this order, and then writes no line. -/
def Obligations.LineWriteSets : Prop :=
  ∀ (s : State) (seq : Byte) (body : List Byte), body.length ≤ 512 →
    Executes s (RequestKind.lineWrite.frame seq body) →
      (body.length ≠ 4 → exec (.lineWrite seq body) s = .next (s.refused .lineWrite seq .format)) ∧
      ∀ m0 m1 v0 v1, body = [m0, m1, v0, v1] →
        let mask : Levels := m1 ++ m0
        let values : Levels := v1 ++ v0
        (s.halt.causes.any = true →
          exec (.lineWrite seq body) s = .next (s.refused .lineWrite seq .halted)) ∧
        (s.halt.causes.any = false → (∃ n : LineIx, mask.getLsbD n.val = true ∧ (s.line n).mode = .timed) →
          exec (.lineWrite seq body) s = .next (s.refused .lineWrite seq .line)) ∧
        (s.halt.causes.any = false → (∀ n : LineIx, mask.getLsbD n.val = true → (s.line n).mode = .direct) →
          let u := { s with
            lines := Vector.ofFn fun n : LineIx =>
              if mask.getLsbD n.val then { s.line n with direct := values.getLsbD n.val } else s.line n }
          exec (.lineWrite seq body) s =
            .next { u with
              link := s.link.answered (RequestKind.lineWrite.okAnswer seq (.lineWrite u.drivenLevels)) })

/-! ### Halt Unit -/

/-- HALT: with REQUEST present nothing changes; in HALTED without it the cause joins the set and the halt slot; in
RUNNING the timeline enters HALTED. RESUME: in RUNNING it changes nothing; in HALTED it is refused with STATE, with its
fields, while STOP_LINE is in the set with the line active or SILENCE is in it with the report state SILENT; else it clears
the set and opens the slot. -/
def Obligations.HaltAndResume : Prop :=
  (∀ (s : State) (seq : Byte), Executes s (RequestKind.halt.frame seq []) → DueListOk s →
    let old := s.halt.slot.getD ⟨false, false, false⟩
    let causes := { s.halt.causes with request := true }
    let l := s.link.answered (RequestKind.halt.okAnswer seq (.halt true causes))
    let unit := { s.halt with causes := causes, slot := some { old with request := true } }
    (s.halt.causes.request = true → exec (.halt seq []) s = .next { s with link := l }) ∧
    (s.halt.causes.any = true → s.halt.causes.request = false →
      exec (.halt seq []) s = .next { s with halt := unit, link := l }) ∧
    (s.halt.causes.any = false →
      ∃ t, exec (.halt seq []) s = .next t ∧ EntersHalted s t ∧ t.halt = unit ∧ t.reports = s.reports ∧ t.link = l)) ∧
  (∀ (s : State) (seq : Byte), Executes s (RequestKind.resume.frame seq []) →
    let held := (s.halt.causes.stopLine = true ∧ s.halt.stopEnable = true ∧ s.halt.stopFiltered = s.halt.stopActive) ∨
      (s.halt.causes.silence = true ∧ s.reports.state = .silent)
    let empty : Causes := ⟨false, false, false⟩
    (s.halt.causes.any = false →
      exec (.resume seq []) s =
        .next { s with
          link := s.link.answered (RequestKind.resume.okAnswer seq (.resume false empty s.halt.stopFiltered)) }) ∧
    (s.halt.causes.any = true → held →
      exec (.resume seq []) s =
        .next { s with
          link := s.link.answered
            ⟨0xA5, seq, .state, .resume true s.halt.causes s.halt.stopFiltered⟩ }) ∧
    (s.halt.causes.any = true → ¬held →
      exec (.resume seq []) s =
        .next { s with
          halt := { s.halt with causes := empty, slot := some (s.halt.slot.getD empty) }
          link := s.link.answered (RequestKind.resume.okAnswer seq (.resume false empty s.halt.stopFiltered)) }))

/-- STOP-SETUP stores the enable and the active level and tests the line under them: an active line adds STOP_LINE when
the cause is absent, and a RUNNING timeline enters HALTED; otherwise the causes and the slot stay. -/
def Obligations.StopSetupTests : Prop :=
  ∀ (s : State) (seq eb ab : Byte), Executes s (RequestKind.stopSetup.frame seq [eb, ab]) → DueListOk s →
    let enable := decide (eb = 1)
    let active := decide (ab = 1)
    let unit := { s.halt with stopEnable := enable, stopActive := active }
    let stopActive := enable = true ∧ s.halt.stopFiltered = active
    let causes := { s.halt.causes with stopLine := true }
    let stopped := { unit with
      causes := causes, slot := some { s.halt.slot.getD ⟨false, false, false⟩ with stopLine := true } }
    let l := fun (halted : Bool) (cs : Causes) => s.link.answered (RequestKind.stopSetup.okAnswer seq
      (.stopSetup enable active s.halt.stopFiltered halted cs))
    (1 < eb.toNat ∨ 1 < ab.toNat →
      exec (.stopSetup seq [eb, ab]) s = .next (s.refused .stopSetup seq .value)) ∧
    (eb.toNat ≤ 1 → ab.toNat ≤ 1 →
      (¬stopActive ∨ s.halt.causes.stopLine = true →
        exec (.stopSetup seq [eb, ab]) s =
          .next { s with halt := unit, link := l s.halt.causes.any s.halt.causes }) ∧
      (stopActive → s.halt.causes.stopLine = false → s.halt.causes.any = true →
        exec (.stopSetup seq [eb, ab]) s = .next { s with halt := stopped, link := l true causes }) ∧
      (stopActive → s.halt.causes.any = false →
        ∃ t, exec (.stopSetup seq [eb, ab]) s = .next t ∧ EntersHalted s t ∧ t.halt = stopped ∧
          t.reports = s.reports ∧ t.link = l true causes))

/-- The STOP filter: a sample that differs opens the window; one that returns closes it with nothing counted; a level
held to the end is accepted. An accepted level of a disabled line is only stored; of an enabled line it also opens the
halt slot, and the active level adds STOP_LINE, which makes a RUNNING timeline enter HALTED. That the command says its
moment has come is the model's choice (log entry 1). -/
def Obligations.StopFilterActs : Prop :=
  ∀ s : State, DueListOk s →
    let new := !s.halt.stopFiltered
    let taken := { s.halt with stopRaw := new, stopFiltered := new, stopWindow := none }
    let slot := s.halt.slot.getD ⟨false, false, false⟩
    let latched := { s.halt.causes with stopLine := true }
    (s.hold = none → s.halt.stopWindow = none →
      exec .stopWindowOpen s = .next { s with halt := { s.halt with stopRaw := new, stopWindow := some 0 } }) ∧
    (s.halt.stopWindow ≠ none →
      exec .stopGlitch s =
        .next { s with halt := { s.halt with stopRaw := s.halt.stopFiltered, stopWindow := none } }) ∧
    (s.halt.stopWindow ≠ none →
      (s.halt.stopEnable = false → exec .stopLevelAccepted s = .next { s with halt := taken }) ∧
      (s.halt.stopEnable = true → new ≠ s.halt.stopActive ∨ s.halt.causes.stopLine = true →
        exec .stopLevelAccepted s = .next { s with halt := { taken with slot := some slot } }) ∧
      (s.halt.stopEnable = true → new = s.halt.stopActive → s.halt.causes.any = true →
        s.halt.causes.stopLine = false →
          exec .stopLevelAccepted s =
            .next { s with
              halt := { taken with causes := latched, slot := some { slot with stopLine := true } } }) ∧
      (s.halt.stopEnable = true → new = s.halt.stopActive → s.halt.causes.any = false →
        ∃ t, exec .stopLevelAccepted s = .next t ∧ EntersHalted s t ∧
          t.halt = { taken with causes := latched, slot := some { slot with stopLine := true } } ∧
          t.reports = s.reports ∧ t.link = s.link))

/-! ### Input Channels -/

/-- CHANNEL-SETUP stores the whole setup: the interval reference becomes absent, an open window is abandoned when the
filter changes, a changed linger clears linger due and starts or stops the timer. It is answered STATE for a quota
below the held count, or for OFF while an entry could wait on the channel, and VALUE for a field out of range. A
CHANNEL-SETUP of the right length that lays out no channel with a setup in range is answered VALUE.
CHANNEL-QUERY reports one channel; with the clear flag the glitch count is 0 afterwards, and nothing else changes. -/
def Obligations.ChannelSetupAndQuery : Prop :=
  ((∀ (s : State) (seq : Byte) (c : ChanIx) (new : ChannelSetup), new.InRange →
      Executes s (RequestKind.channelSetup.frame seq (bytes8 c.val ++ new.bytes)) →
        let body := bytes8 c.val ++ new.bytes
        let ch := s.channel c
        let claimed := ∃ i : EntryIx, ∃ e ∈ s.entry i, (∃ sense d a, e.plan.start = .onTrigger c sense d a) ∧
          (e.progress = .waiting ∨ (e.armed = true ∧ (∃ due r, e.progress = .pending due r)) ∨
            (e.armed = true ∧ ∃ due lead r, e.progress = .trailing due lead r false))
        let abandoned := decide (new.filter ≠ ch.setup.filter) && ch.window.isSome
        (new.quota < s.heldCount c ∨ (new.mode = .off ∧ claimed) →
          exec (.channelSetup seq body) s = .next (s.refused .channelSetup seq .state)) ∧
        (s.heldCount c ≤ new.quota → ¬(new.mode = .off ∧ claimed) →
          exec (.channelSetup seq body) s =
            .next { s.setChannel c
                { ch with
                  setup := new
                  window := if abandoned then none else ch.window
                  reference := none
                  lingerTimer :=
                    if new.linger = ch.setup.linger then ch.lingerTimer
                    else if new.linger ≠ 0 ∧ ch.unreported ≠ [] then some (new.linger + 1)
                    else none
                  lingerDue := if new.linger = ch.setup.linger then ch.lingerDue else false } with
              link := s.link.answered (RequestKind.channelSetup.okAnswer seq
                (.channelSetup new ch.filtered abandoned)) })) ∧
  (∀ (s : State) (seq : Byte) (body : List Byte), body.length = 11 →
      Executes s (RequestKind.channelSetup.frame seq body) →
        (∀ (c : ChanIx) (new : ChannelSetup), new.InRange → body ≠ bytes8 c.val ++ new.bytes) →
          exec (.channelSetup seq body) s = .next (s.refused .channelSetup seq .value))) ∧
  (∀ (s : State) (seq cb flag : Byte), Executes s (RequestKind.channelQuery.frame seq [cb, flag]) →
    (15 < cb.toNat ∨ 1 < flag.toNat →
      exec (.channelQuery seq [cb, flag]) s = .next (s.refused .channelQuery seq .value)) ∧
    ∀ c : ChanIx, c.val = cb.toNat → flag.toNat ≤ 1 →
      let ch := s.channel c
      let view : ChannelView :=
        { setup := ch.setup, raw := ch.raw, filtered := ch.filtered, windowStamp := ch.window.map Window.stamp
          referencePresent := ch.reference.isSome, glitches := ch.glitches, level := ch.level
          held := s.heldCount c, unreported := ch.unreported.length, lost := ch.lost, flushFlag := ch.flushFlag }
      exec (.channelQuery seq [cb, flag]) s =
        .next { s.setChannel c { ch with glitches := if flag = 1 then 0 else ch.glitches } with
          link := s.link.answered (RequestKind.channelQuery.okAnswer seq (.channelQuery view)) })

/-- The filter of a channel: a raw transition opens the window stamped with the count, and with a filter of 0 the edge
is accepted at once; a return to the filtered level closes the window as a glitch, and the saturating count rises; a return
with the window closed, as after an abandonment, is counted nowhere. That the command says its moment has come is the
model's choice (log entry 1), the return with the window closed log entry 33, and with a filter of 0 the acceptance in the
same step log entry 13. -/
def Obligations.FilterWindowActs : Prop :=
  ∀ (s : State) (c : ChanIx),
    let ch := s.channel c
    let opened := s.setChannel c { ch with raw := !ch.filtered, window := some ⟨s.timebase.count, 0⟩ }
    (s.hold = none → ch.window = none → ch.setup.filter ≠ 0 → exec (.rawTransition c) s = .next opened) ∧
      (s.hold = none → ch.window = none → ch.setup.filter = 0 →
        exec (.rawTransition c) s = exec (.edgeAccepted c) opened) ∧
      (ch.window ≠ none →
        exec (.glitch c) s =
          .next (s.setChannel c
            { ch with raw := ch.filtered, window := none, glitches := min (ch.glitches + 1) 65535 })) ∧
      (s.hold = none → ch.window = none →
        exec (.glitch c) s = .next (s.setChannel c { ch with raw := ch.filtered }))

/-- The filters in the periods of the base clock. STOP: a sample that differs opens the window, the window stays open over
the periods before the 240th, the level is accepted at the 240th, a sample that returns closes it. An input line: the same
with 24 periods for each microsecond of the filter, the stamp kept. Each opening, return and acceptance is the event of its
command. That the opening sample is time 0 is DEDUCED (log entry 24). -/
def Obligations.FiltersTimed : Prop :=
  (∀ s : State, s.hold = none →
    let h := s.halt
    (h.stopRaw = h.stopFiltered → h.stopWindow = none → s.stopPeriod = s) ∧
    (h.stopRaw = h.stopFiltered → h.stopWindow ≠ none → exec .stopGlitch s = .next s.stopPeriod) ∧
    (h.stopRaw ≠ h.stopFiltered → h.stopWindow = none → exec .stopWindowOpen s = .next s.stopPeriod) ∧
    (∀ k n, h.stopRaw ≠ h.stopFiltered → h.stopWindow = some k →
      (k + n < 240 → State.stopPeriod^[n] s = { s with halt := { h with stopWindow := some (k + n) } }) ∧
      (1 ≤ n → k + n = 240 → exec .stopLevelAccepted s = .next (State.stopPeriod^[n] s)))) ∧
  (∀ (s : State) (c : ChanIx), s.hold = none →
    let ch := s.channel c
    let period := fun u : State => u.inputPeriod c
    (ch.raw = ch.filtered → ch.window = none → period s = s) ∧
    (ch.raw = ch.filtered → ch.window ≠ none → exec (.glitch c) s = .next (period s)) ∧
    (ch.raw ≠ ch.filtered → ch.window = none → exec (.rawTransition c) s = .next (period s)) ∧
    (∀ stamp k n, ch.raw ≠ ch.filtered → ch.window = some ⟨stamp, k⟩ →
      (k + n < 24 * ch.setup.filter →
        period^[n] s = s.setChannel c { ch with window := some ⟨stamp, k + n⟩ }) ∧
      (1 ≤ n → k + n = 24 * ch.setup.filter → exec (.edgeAccepted c) s = .next (period^[n] s))))

/-- An accepted edge: the filtered level changes and the window closes. In OFF, and in CAPTURE while STOPPED, nothing else;
in CAPTURE while RUNNING, selected by the sense, it is a record at the tail of the list when a place is free and the channel
is below its quota, and is lost otherwise; in WATCH it is merged into the level slot. In CAPTURE while RUNNING and in WATCH
it is then offered to the triggers, which while STOPPED offers it to none. That the command says its moment has come is the
model's choice (log entry 1), and so is that a selected edge whose window spans a load of the count or a stopped period sets
the reference to its stamp as every other does (log entry 34). -/
def Obligations.EdgeDistributed : Prop :=
  ∀ (s : State) (c : ChanIx) (w : Window), (s.channel c).window = some w →
    let ch := s.channel c
    let edge : Edge := if ch.filtered then .fall else .rise
    let base := { ch with raw := !ch.filtered, filtered := !ch.filtered, window := none }
    let offered := fun ch' : Channel => (s.setChannel c ch').offerTrigger c edge w.stamp
    let running := s.timebase.state = .running
    let selected := ch.setup.sense = .both ∨ (ch.setup.sense = .rise ∧ edge = .rise) ∨
      (ch.setup.sense = .fall ∧ edge = .fall)
    let room := ((List.finRange 16).map s.heldCount).sum < 256 ∧ s.heldCount c < ch.setup.quota
    let interval := if ch.setup.interval then ch.reference.map fun r => w.stamp - r else none
    (ch.setup.mode = .off ∨ (ch.setup.mode = .capture ∧ ¬running) →
      exec (.edgeAccepted c) s = .next (s.setChannel c base)) ∧
    (ch.setup.mode = .capture → running → ¬selected → exec (.edgeAccepted c) s = .next (offered base)) ∧
    (ch.setup.mode = .capture → running → selected → room →
      exec (.edgeAccepted c) s =
        .next (offered { base with
          reference := some w.stamp
          unreported := ch.unreported ++ [⟨edge, w.stamp, interval, ch.lossMark⟩]
          lossMark := false
          lingerTimer :=
            if ch.unreported = [] ∧ ch.setup.linger ≠ 0 then some (ch.setup.linger + 1)
            else ch.lingerTimer })) ∧
    (ch.setup.mode = .capture → running → selected → ¬room →
      exec (.edgeAccepted c) s =
        .next (offered { base with reference := some w.stamp, lost := min (ch.lost + 1) 65535, lossMark := true })) ∧
    (ch.setup.mode = .watch →
      exec (.edgeAccepted c) s =
        .next (offered { base with
          level :=
            match ch.level with
            | none => some ⟨1, w.stamp, w.stamp⟩
            | some n => some { n with changes := min (n.changes + 1) 65535, last := w.stamp } }))

/-! ### Capture Journal -/

/-- FLUSH sets the flush flag of each channel it names, 0 to 15 one channel and 0xFF all, that has unreported records
or a lost count above 0; it answers with the channels flagged and the records their next batches carry; every other
selector is answered VALUE. The expiry of a running linger timer sets linger due and stops the timer. That the expiry
comes with its command is the model's choice (log entry 1). -/
def Obligations.FlushAndLinger : Prop :=
  (∀ (s : State) (seq b : Byte), Executes s (RequestKind.flush.frame seq [b]) →
      (15 < b.toNat → b ≠ 0xFF → exec (.flush seq [b]) s = .next (s.refused .flush seq .value)) ∧
      (b.toNat ≤ 15 ∨ b = 0xFF →
        let named := fun c : ChanIx => decide (b = 0xFF) || decide (c.val = b.toNat)
        let after := fun c : ChanIx =>
          let ch := s.channel c
          if named c && (decide (ch.unreported ≠ []) || decide (0 < ch.lost)) then { ch with flushFlag := true } else ch
        let flagged := (List.finRange 16).filter fun c => named c && (after c).flushFlag
        exec (.flush seq [b]) s =
          .next { s with
            channels := Vector.ofFn after
            link := s.link.answered (RequestKind.flush.okAnswer seq
              (.flush flagged.length (flagged.map fun c => min (s.channel c).unreported.length 48).sum)) })) ∧
  (∀ (s : State) (c : ChanIx), (s.channel c).lingerTimer ≠ none →
      exec (.lingerExpiry c) s =
        .next { s with
          channels := s.channels.set c.val { s.channel c with lingerTimer := none, lingerDue := true } })

/-! ### Report Queue on its own -/

/-- The expiry of the report timer: below the retry limit the retry count rises and every sent report is marked for
resending; at or above it the state becomes SILENT, and with halt-on-silence SILENCE is added, which makes a RUNNING
timeline enter HALTED. That the transmitter chooses within the step is the model's choice (log entry 14). -/
def Obligations.ReportTimerExpires : Prop :=
  ∀ s : State, s.reports.timer ≠ none → DueListOk s → (s.link.waiting = none ∨ s.link.tx ≠ none) →
    let silent := { s.reports with timer := none, state := .silent }
    let added := { s.halt with
      causes := { s.halt.causes with silence := true }
      slot := some { s.halt.slot.getD ⟨false, false, false⟩ with silence := true } }
    (s.reports.retries < s.reports.retryLimit →
      exec .reportTimerExpiry s =
        .next ({ s with
          reports :=
            { s.reports with
              reports := s.reports.reports.map fun r : Report => if r.sent then { r with resend := true } else r
              retries := s.reports.retries + 1, timer := none } } : State).transmitChoice) ∧
    (s.reports.retryLimit ≤ s.reports.retries →
      (s.reports.haltOnSilence = false ∨ s.halt.causes.silence = true →
        exec .reportTimerExpiry s = .next { s with reports := silent }) ∧
      (s.reports.haltOnSilence = true → s.halt.causes.silence = false → s.halt.causes.any = true →
        exec .reportTimerExpiry s = .next { s with reports := silent, halt := added }) ∧
      (s.reports.haltOnSilence = true → s.halt.causes.any = false →
        ∃ t, exec .reportTimerExpiry s = .next t ∧ EntersHalted s t ∧ t.reports = silent ∧ t.halt = added ∧
          t.link = s.link))

/-- One admission: with a free place, the arbiter serves the class whose turn it is; within the notices the halt slot,
then the next entry slot, then the next level slot in turn; within the batches the next channel in turn. The item joins
the tail as an unsent report with the next number, its producer's slot is emptied (a RETIRED entry becomes FREE), and a
batch takes the oldest 48 records and the lost count. With no free place or nothing ready, nothing happens. That one
command is one admission and that the transmitter chooses within it are the model's choices (log entries 14, 18). All of it
holds in both report states; that the halt slot and the level slots are admitted in SILENT too is the model's choice (log
entry 31). -/
def Obligations.AdmissionServes : Prop :=
  ∀ s : State, s.hold = none →
    let q := s.reports
    let pushed : ReportContent → ReportQueue := fun content =>
      { q with reports := q.reports ++ [⟨q.nextSeq, content, false, false, false⟩], nextSeq := q.nextSeq + 1 }
    (32 ≤ q.reports.length → exec .admission s = .next s) ∧
    (¬NoticeReady s → (∀ c, ¬BatchReady s c) → exec .admission s = .next s) ∧
    (q.reports.length < 32 →
      (∀ added, NoticeServed s → s.halt.slot = some added →
        exec .admission s =
          .next ({ s with
            halt := { s.halt with slot := none }
            reports :=
              { pushed (.halt s.halt.causes.any s.halt.causes added s.halt.stopFiltered) with
                lastClass := .notice } } : State).transmitChoice) ∧
      (∀ (i : EntryIx) (e : Entry) (n : EntryNotice), NoticeServed s → s.halt.slot = none →
        FirstAfter q.lastEntry i (SlotPending s) → s.entry i = some e → e.slot = .pending n →
          exec .admission s =
            .next ({ s.setEntry i (if e.progress = .retired then none else some { e with slot := .empty }) with
              reports := { pushed (.entry i e.plan.tag n) with lastClass := .notice, lastEntry := i } } : State).transmitChoice) ∧
      (∀ (c : ChanIx) (n : LevelNotice), NoticeServed s → s.halt.slot = none → (∀ i, ¬SlotPending s i) →
        FirstAfter q.lastLevel c (fun c' => (s.channel c').level ≠ none) → (s.channel c).level = some n →
          exec .admission s =
            .next ({ s.setChannel c { s.channel c with level := none } with
              reports :=
                { pushed (.level c (s.channel c).filtered n) with
                  lastClass := .notice, lastLevel := c } } : State).transmitChoice) ∧
      (∀ c : ChanIx, ¬NoticeServed s → FirstAfter q.lastBatch c (BatchReady s) →
        let ch := s.channel c
        let left := ch.unreported.drop 48
        exec .admission s =
          .next ({ s.setChannel c
              { ch with
                unreported := left, lost := 0, flushFlag := false, lingerDue := false
                lingerTimer := if ch.setup.linger ≠ 0 ∧ left ≠ [] then some (ch.setup.linger + 1) else none } with
            reports :=
              { pushed (.batch c ch.lost (ch.unreported.take 48)) with
                lastClass := .batch, lastBatch := c } } : State).transmitChoice))

/-! ### Device reset -/

/-- POWER_ON and an active RESET pin hold every block at its reset values, with every output at 0 and TX high, under
their cause; a RESET pin that becomes active while a power-on reset holds changes nothing. The causes of resets that
meet are DEDUCED (log entry 7).
The end of a device reset: every block at its reset values, the RATE pins and the first samples of STOP and the
input lines taken, STOP_LINE added with the halt slot open when STOP is low, and START admitted as number 0 and taken
by the idle transmitter. A reset brought about by RESTART ends by itself: the period that makes its 24,000 ends the
hold, as RESET_END would with the pins as they stand. That a period passes on an empty queue, and the pins a RESTART
reset ends with, are the model's choices (log entries 2, 6). The prior sample of RX after the reset is the
model's choice (log entry 32). -/
def Obligations.DeviceResets : Prop :=
  (∀ s : State,
    exec .powerOn s = .next (s.heldInReset .power) ∧
      ((∀ h ∈ s.hold, h.cause ≠ .power) → exec .resetPin s = .next (s.heldInReset .pin)) ∧
      (∀ h ∈ s.hold, h.cause = .power → exec .resetPin s = .next s) ∧
      ∀ cause, (∀ n, (s.heldInReset cause).drivenLevel n = false) ∧ (s.heldInReset cause).link.txLevel = true) ∧
  ((∀ (s : State) (h : ResetHold) (rate1 rate0 stop : Bool) (inputs : Levels), s.hold = some h →
      let rate := LinkRate.ofPins rate1 rate0
      exec (.resetEnd rate1 rate0 stop inputs) s =
        .next {
          timebase := ⟨0, .stopped, .internal, 24, 0, none, s.timebase.cntRaw, 0⟩
          entries := Vector.replicate 64 none
          dueList := []
          lines := Vector.replicate 16 ⟨.direct, false, false, false⟩
          halt :=
            ⟨⟨false, !stop, false⟩, true, false, stop, none, stop, if stop then none else some ⟨false, true, false⟩⟩
          channels := Vector.ofFn fun c : ChanIx =>
            ⟨⟨.off, .both, 0, false, 8, 32, 0⟩, inputs.getLsbD c.val, inputs.getLsbD c.val, none, none, 0, none, [], 0,
              false, false, none, false⟩
          reports := ⟨[⟨0, .start h.cause rate, true, false, true⟩], 1, none, 0, .flowing, 50, 4, false, .batch, 63, 15, 15⟩
          link := ⟨.hunt, none, 0, 0, 0, 0, [], none, [], some ⟨.report 0 (.start h.cause rate), 0⟩, rate, rate1, rate0,
            false, s.link.rxRaw, .idle true⟩
          hold := none
          pending := s.pending }) ∧
  (∀ (s : State) (h : ResetHold), s.pending = [] → s.hold = some h → h.cause = .restart →
      (h.elapsed + 1 < 24000 → step s = .next { s with hold := some { h with elapsed := h.elapsed + 1 } }) ∧
        (h.elapsed + 1 = 24000 →
          step s = exec (.resetEnd s.link.rate1 s.link.rate0 s.halt.stopRaw (levelsOf fun c => (s.channel c).raw)) s)))
end

