-- ==== Sys2Proof/Laws/State.lean ====
section
/-! SUPPORT. What each write of a part of the state leaves in every field, and what reading a place gives after one. -/

namespace Sys2Proof.Machine

variable (s : State)

/-! ### State.setEntry -/

@[simp] theorem State.setEntry_timebase (i : EntryIx) (e : Option Entry) : (s.setEntry i e).timebase = s.timebase := rfl
@[simp] theorem State.setEntry_entries (i : EntryIx) (e : Option Entry) : (s.setEntry i e).entries = s.entries.set i.val e := rfl
@[simp] theorem State.setEntry_dueList (i : EntryIx) (e : Option Entry) : (s.setEntry i e).dueList = s.dueList := rfl
@[simp] theorem State.setEntry_lines (i : EntryIx) (e : Option Entry) : (s.setEntry i e).lines = s.lines := rfl
@[simp] theorem State.setEntry_halt (i : EntryIx) (e : Option Entry) : (s.setEntry i e).halt = s.halt := rfl
@[simp] theorem State.setEntry_channels (i : EntryIx) (e : Option Entry) : (s.setEntry i e).channels = s.channels := rfl
@[simp] theorem State.setEntry_reports (i : EntryIx) (e : Option Entry) : (s.setEntry i e).reports = s.reports := rfl
@[simp] theorem State.setEntry_link (i : EntryIx) (e : Option Entry) : (s.setEntry i e).link = s.link := rfl
@[simp] theorem State.setEntry_hold (i : EntryIx) (e : Option Entry) : (s.setEntry i e).hold = s.hold := rfl
@[simp] theorem State.setEntry_pending (i : EntryIx) (e : Option Entry) : (s.setEntry i e).pending = s.pending := rfl

/-! ### State.setLine -/

@[simp] theorem State.setLine_timebase (n : LineIx) (l : OutLine) : (s.setLine n l).timebase = s.timebase := rfl
@[simp] theorem State.setLine_entries (n : LineIx) (l : OutLine) : (s.setLine n l).entries = s.entries := rfl
@[simp] theorem State.setLine_dueList (n : LineIx) (l : OutLine) : (s.setLine n l).dueList = s.dueList := rfl
@[simp] theorem State.setLine_lines (n : LineIx) (l : OutLine) : (s.setLine n l).lines = s.lines.set n.val l := rfl
@[simp] theorem State.setLine_halt (n : LineIx) (l : OutLine) : (s.setLine n l).halt = s.halt := rfl
@[simp] theorem State.setLine_channels (n : LineIx) (l : OutLine) : (s.setLine n l).channels = s.channels := rfl
@[simp] theorem State.setLine_reports (n : LineIx) (l : OutLine) : (s.setLine n l).reports = s.reports := rfl
@[simp] theorem State.setLine_link (n : LineIx) (l : OutLine) : (s.setLine n l).link = s.link := rfl
@[simp] theorem State.setLine_hold (n : LineIx) (l : OutLine) : (s.setLine n l).hold = s.hold := rfl
@[simp] theorem State.setLine_pending (n : LineIx) (l : OutLine) : (s.setLine n l).pending = s.pending := rfl

/-! ### State.setChannel -/

@[simp] theorem State.setChannel_timebase (c : ChanIx) (ch : Channel) : (s.setChannel c ch).timebase = s.timebase := rfl
@[simp] theorem State.setChannel_entries (c : ChanIx) (ch : Channel) : (s.setChannel c ch).entries = s.entries := rfl
@[simp] theorem State.setChannel_dueList (c : ChanIx) (ch : Channel) : (s.setChannel c ch).dueList = s.dueList := rfl
@[simp] theorem State.setChannel_lines (c : ChanIx) (ch : Channel) : (s.setChannel c ch).lines = s.lines := rfl
@[simp] theorem State.setChannel_halt (c : ChanIx) (ch : Channel) : (s.setChannel c ch).halt = s.halt := rfl
@[simp] theorem State.setChannel_channels (c : ChanIx) (ch : Channel) : (s.setChannel c ch).channels = s.channels.set c.val ch := rfl
@[simp] theorem State.setChannel_reports (c : ChanIx) (ch : Channel) : (s.setChannel c ch).reports = s.reports := rfl
@[simp] theorem State.setChannel_link (c : ChanIx) (ch : Channel) : (s.setChannel c ch).link = s.link := rfl
@[simp] theorem State.setChannel_hold (c : ChanIx) (ch : Channel) : (s.setChannel c ch).hold = s.hold := rfl
@[simp] theorem State.setChannel_pending (c : ChanIx) (ch : Channel) : (s.setChannel c ch).pending = s.pending := rfl

/-! ### State.mapChannels -/

@[simp] theorem State.mapChannels_timebase (f : Channel → Channel) : (s.mapChannels f).timebase = s.timebase := rfl
@[simp] theorem State.mapChannels_entries (f : Channel → Channel) : (s.mapChannels f).entries = s.entries := rfl
@[simp] theorem State.mapChannels_dueList (f : Channel → Channel) : (s.mapChannels f).dueList = s.dueList := rfl
@[simp] theorem State.mapChannels_lines (f : Channel → Channel) : (s.mapChannels f).lines = s.lines := rfl
@[simp] theorem State.mapChannels_halt (f : Channel → Channel) : (s.mapChannels f).halt = s.halt := rfl
@[simp] theorem State.mapChannels_channels (f : Channel → Channel) : (s.mapChannels f).channels = s.channels.map f := rfl
@[simp] theorem State.mapChannels_reports (f : Channel → Channel) : (s.mapChannels f).reports = s.reports := rfl
@[simp] theorem State.mapChannels_link (f : Channel → Channel) : (s.mapChannels f).link = s.link := rfl
@[simp] theorem State.mapChannels_hold (f : Channel → Channel) : (s.mapChannels f).hold = s.hold := rfl
@[simp] theorem State.mapChannels_pending (f : Channel → Channel) : (s.mapChannels f).pending = s.pending := rfl

/-! ### State.setTimebase -/

@[simp] theorem State.setTimebase_timebase (t : Timebase) : (s.setTimebase t).timebase = t := rfl
@[simp] theorem State.setTimebase_entries (t : Timebase) : (s.setTimebase t).entries = s.entries := rfl
@[simp] theorem State.setTimebase_dueList (t : Timebase) : (s.setTimebase t).dueList = s.dueList := rfl
@[simp] theorem State.setTimebase_lines (t : Timebase) : (s.setTimebase t).lines = s.lines := rfl
@[simp] theorem State.setTimebase_halt (t : Timebase) : (s.setTimebase t).halt = s.halt := rfl
@[simp] theorem State.setTimebase_channels (t : Timebase) : (s.setTimebase t).channels = s.channels := rfl
@[simp] theorem State.setTimebase_reports (t : Timebase) : (s.setTimebase t).reports = s.reports := rfl
@[simp] theorem State.setTimebase_link (t : Timebase) : (s.setTimebase t).link = s.link := rfl
@[simp] theorem State.setTimebase_hold (t : Timebase) : (s.setTimebase t).hold = s.hold := rfl
@[simp] theorem State.setTimebase_pending (t : Timebase) : (s.setTimebase t).pending = s.pending := rfl

/-! ### State.setDueList -/

@[simp] theorem State.setDueList_timebase (l : List EntryIx) : (s.setDueList l).timebase = s.timebase := rfl
@[simp] theorem State.setDueList_entries (l : List EntryIx) : (s.setDueList l).entries = s.entries := rfl
@[simp] theorem State.setDueList_dueList (l : List EntryIx) : (s.setDueList l).dueList = l := rfl
@[simp] theorem State.setDueList_lines (l : List EntryIx) : (s.setDueList l).lines = s.lines := rfl
@[simp] theorem State.setDueList_halt (l : List EntryIx) : (s.setDueList l).halt = s.halt := rfl
@[simp] theorem State.setDueList_channels (l : List EntryIx) : (s.setDueList l).channels = s.channels := rfl
@[simp] theorem State.setDueList_reports (l : List EntryIx) : (s.setDueList l).reports = s.reports := rfl
@[simp] theorem State.setDueList_link (l : List EntryIx) : (s.setDueList l).link = s.link := rfl
@[simp] theorem State.setDueList_hold (l : List EntryIx) : (s.setDueList l).hold = s.hold := rfl
@[simp] theorem State.setDueList_pending (l : List EntryIx) : (s.setDueList l).pending = s.pending := rfl

/-! ### State.setHalt -/

@[simp] theorem State.setHalt_timebase (h : HaltUnit) : (s.setHalt h).timebase = s.timebase := rfl
@[simp] theorem State.setHalt_entries (h : HaltUnit) : (s.setHalt h).entries = s.entries := rfl
@[simp] theorem State.setHalt_dueList (h : HaltUnit) : (s.setHalt h).dueList = s.dueList := rfl
@[simp] theorem State.setHalt_lines (h : HaltUnit) : (s.setHalt h).lines = s.lines := rfl
@[simp] theorem State.setHalt_halt (h : HaltUnit) : (s.setHalt h).halt = h := rfl
@[simp] theorem State.setHalt_channels (h : HaltUnit) : (s.setHalt h).channels = s.channels := rfl
@[simp] theorem State.setHalt_reports (h : HaltUnit) : (s.setHalt h).reports = s.reports := rfl
@[simp] theorem State.setHalt_link (h : HaltUnit) : (s.setHalt h).link = s.link := rfl
@[simp] theorem State.setHalt_hold (h : HaltUnit) : (s.setHalt h).hold = s.hold := rfl
@[simp] theorem State.setHalt_pending (h : HaltUnit) : (s.setHalt h).pending = s.pending := rfl

/-! ### State.setReports -/

@[simp] theorem State.setReports_timebase (q : ReportQueue) : (s.setReports q).timebase = s.timebase := rfl
@[simp] theorem State.setReports_entries (q : ReportQueue) : (s.setReports q).entries = s.entries := rfl
@[simp] theorem State.setReports_dueList (q : ReportQueue) : (s.setReports q).dueList = s.dueList := rfl
@[simp] theorem State.setReports_lines (q : ReportQueue) : (s.setReports q).lines = s.lines := rfl
@[simp] theorem State.setReports_halt (q : ReportQueue) : (s.setReports q).halt = s.halt := rfl
@[simp] theorem State.setReports_channels (q : ReportQueue) : (s.setReports q).channels = s.channels := rfl
@[simp] theorem State.setReports_reports (q : ReportQueue) : (s.setReports q).reports = q := rfl
@[simp] theorem State.setReports_link (q : ReportQueue) : (s.setReports q).link = s.link := rfl
@[simp] theorem State.setReports_hold (q : ReportQueue) : (s.setReports q).hold = s.hold := rfl
@[simp] theorem State.setReports_pending (q : ReportQueue) : (s.setReports q).pending = s.pending := rfl

/-! ### State.setLink -/

@[simp] theorem State.setLink_timebase (l : Link) : (s.setLink l).timebase = s.timebase := rfl
@[simp] theorem State.setLink_entries (l : Link) : (s.setLink l).entries = s.entries := rfl
@[simp] theorem State.setLink_dueList (l : Link) : (s.setLink l).dueList = s.dueList := rfl
@[simp] theorem State.setLink_lines (l : Link) : (s.setLink l).lines = s.lines := rfl
@[simp] theorem State.setLink_halt (l : Link) : (s.setLink l).halt = s.halt := rfl
@[simp] theorem State.setLink_channels (l : Link) : (s.setLink l).channels = s.channels := rfl
@[simp] theorem State.setLink_reports (l : Link) : (s.setLink l).reports = s.reports := rfl
@[simp] theorem State.setLink_link (l : Link) : (s.setLink l).link = l := rfl
@[simp] theorem State.setLink_hold (l : Link) : (s.setLink l).hold = s.hold := rfl
@[simp] theorem State.setLink_pending (l : Link) : (s.setLink l).pending = s.pending := rfl

/-! ### State.setPending -/

@[simp] theorem State.setPending_timebase (l : List Instr) : (s.setPending l).timebase = s.timebase := rfl
@[simp] theorem State.setPending_entries (l : List Instr) : (s.setPending l).entries = s.entries := rfl
@[simp] theorem State.setPending_dueList (l : List Instr) : (s.setPending l).dueList = s.dueList := rfl
@[simp] theorem State.setPending_lines (l : List Instr) : (s.setPending l).lines = s.lines := rfl
@[simp] theorem State.setPending_halt (l : List Instr) : (s.setPending l).halt = s.halt := rfl
@[simp] theorem State.setPending_channels (l : List Instr) : (s.setPending l).channels = s.channels := rfl
@[simp] theorem State.setPending_reports (l : List Instr) : (s.setPending l).reports = s.reports := rfl
@[simp] theorem State.setPending_link (l : List Instr) : (s.setPending l).link = s.link := rfl
@[simp] theorem State.setPending_hold (l : List Instr) : (s.setPending l).hold = s.hold := rfl
@[simp] theorem State.setPending_pending (l : List Instr) : (s.setPending l).pending = l := rfl

/-! ### Reading a place after a write -/

theorem State.entry_setEntry (i j : EntryIx) (e : Option Entry) :
    (s.setEntry i e).entry j = if i = j then e else s.entry j := by
  simp [State.entry, Vector.getElem_set, Fin.ext_iff]

@[simp] theorem State.entry_setEntry_self (i : EntryIx) (e : Option Entry) : (s.setEntry i e).entry i = e := by
  simp [State.entry_setEntry]

@[simp] theorem State.entry_setEntry_ne {i j : EntryIx} (h : i ≠ j) (e : Option Entry) :
    (s.setEntry i e).entry j = s.entry j := by
  simp [State.entry_setEntry, h]

theorem State.line_setLine (n m : LineIx) (l : OutLine) :
    (s.setLine n l).line m = if n = m then l else s.line m := by
  simp [State.line, Vector.getElem_set, Fin.ext_iff]

@[simp] theorem State.line_setLine_self (n : LineIx) (l : OutLine) : (s.setLine n l).line n = l := by
  simp [State.line_setLine]

@[simp] theorem State.line_setLine_ne {n m : LineIx} (h : n ≠ m) (l : OutLine) :
    (s.setLine n l).line m = s.line m := by
  simp [State.line_setLine, h]

theorem State.channel_setChannel (c d : ChanIx) (ch : Channel) :
    (s.setChannel c ch).channel d = if c = d then ch else s.channel d := by
  simp [State.channel, Vector.getElem_set, Fin.ext_iff]

@[simp] theorem State.channel_setChannel_self (c : ChanIx) (ch : Channel) : (s.setChannel c ch).channel c = ch := by
  simp [State.channel_setChannel]

@[simp] theorem State.channel_setChannel_ne {c d : ChanIx} (h : c ≠ d) (ch : Channel) :
    (s.setChannel c ch).channel d = s.channel d := by
  simp [State.channel_setChannel, h]

@[simp] theorem State.channel_mapChannels (f : Channel → Channel) (c : ChanIx) :
    (s.mapChannels f).channel c = f (s.channel c) := by
  simp [State.channel]

@[simp] theorem State.entry_setLine (n : LineIx) (l : OutLine) (j : EntryIx) : (s.setLine n l).entry j = s.entry j := rfl
@[simp] theorem State.entry_setChannel (c : ChanIx) (ch : Channel) (j : EntryIx) : (s.setChannel c ch).entry j = s.entry j := rfl
@[simp] theorem State.entry_mapChannels (f : Channel → Channel) (j : EntryIx) : (s.mapChannels f).entry j = s.entry j := rfl
@[simp] theorem State.entry_setTimebase (t : Timebase) (j : EntryIx) : (s.setTimebase t).entry j = s.entry j := rfl
@[simp] theorem State.entry_setDueList (l : List EntryIx) (j : EntryIx) : (s.setDueList l).entry j = s.entry j := rfl
@[simp] theorem State.entry_setHalt (h : HaltUnit) (j : EntryIx) : (s.setHalt h).entry j = s.entry j := rfl
@[simp] theorem State.entry_setReports (q : ReportQueue) (j : EntryIx) : (s.setReports q).entry j = s.entry j := rfl
@[simp] theorem State.entry_setLink (l : Link) (j : EntryIx) : (s.setLink l).entry j = s.entry j := rfl
@[simp] theorem State.entry_setPending (l : List Instr) (j : EntryIx) : (s.setPending l).entry j = s.entry j := rfl

@[simp] theorem State.line_setEntry (i : EntryIx) (e : Option Entry) (j : LineIx) : (s.setEntry i e).line j = s.line j := rfl
@[simp] theorem State.line_setChannel (c : ChanIx) (ch : Channel) (j : LineIx) : (s.setChannel c ch).line j = s.line j := rfl
@[simp] theorem State.line_mapChannels (f : Channel → Channel) (j : LineIx) : (s.mapChannels f).line j = s.line j := rfl
@[simp] theorem State.line_setTimebase (t : Timebase) (j : LineIx) : (s.setTimebase t).line j = s.line j := rfl
@[simp] theorem State.line_setDueList (l : List EntryIx) (j : LineIx) : (s.setDueList l).line j = s.line j := rfl
@[simp] theorem State.line_setHalt (h : HaltUnit) (j : LineIx) : (s.setHalt h).line j = s.line j := rfl
@[simp] theorem State.line_setReports (q : ReportQueue) (j : LineIx) : (s.setReports q).line j = s.line j := rfl
@[simp] theorem State.line_setLink (l : Link) (j : LineIx) : (s.setLink l).line j = s.line j := rfl
@[simp] theorem State.line_setPending (l : List Instr) (j : LineIx) : (s.setPending l).line j = s.line j := rfl

@[simp] theorem State.channel_setEntry (i : EntryIx) (e : Option Entry) (j : ChanIx) : (s.setEntry i e).channel j = s.channel j := rfl
@[simp] theorem State.channel_setLine (n : LineIx) (l : OutLine) (j : ChanIx) : (s.setLine n l).channel j = s.channel j := rfl
@[simp] theorem State.channel_setTimebase (t : Timebase) (j : ChanIx) : (s.setTimebase t).channel j = s.channel j := rfl
@[simp] theorem State.channel_setDueList (l : List EntryIx) (j : ChanIx) : (s.setDueList l).channel j = s.channel j := rfl
@[simp] theorem State.channel_setHalt (h : HaltUnit) (j : ChanIx) : (s.setHalt h).channel j = s.channel j := rfl
@[simp] theorem State.channel_setReports (q : ReportQueue) (j : ChanIx) : (s.setReports q).channel j = s.channel j := rfl
@[simp] theorem State.channel_setLink (l : Link) (j : ChanIx) : (s.setLink l).channel j = s.channel j := rfl
@[simp] theorem State.channel_setPending (l : List Instr) (j : ChanIx) : (s.setPending l).channel j = s.channel j := rfl

/-! ### Two states are equal when their fields are -/

theorem State.ext_fields {s t : State} (h0 : s.timebase = t.timebase) (h1 : s.entries = t.entries)
    (h2 : s.dueList = t.dueList) (h3 : s.lines = t.lines) (h4 : s.halt = t.halt) (h5 : s.channels = t.channels)
    (h6 : s.reports = t.reports) (h7 : s.link = t.link) (h8 : s.hold = t.hold) (h9 : s.pending = t.pending) : s = t := by
  cases s; cases t; simp_all

theorem State.entries_ext {s t : State} (h : ∀ i, s.entry i = t.entry i) : s.entries = t.entries := by
  apply Vector.ext
  intro i hi
  exact h ⟨i, hi⟩

theorem State.lines_ext {s t : State} (h : ∀ n, s.line n = t.line n) : s.lines = t.lines := by
  apply Vector.ext
  intro i hi
  exact h ⟨i, hi⟩

theorem State.channels_ext {s t : State} (h : ∀ c, s.channel c = t.channel c) : s.channels = t.channels := by
  apply Vector.ext
  intro i hi
  exact h ⟨i, hi⟩

end Sys2Proof.Machine
end

