-- ==== Sys2Proof/Laws/Ops.lean ====
section
/-! SUPPORT. What each shared operation over the state can do, said once: the fields it leaves alone, and what it makes of
the others. -/

namespace Sys2Proof.Machine

/-! ### The Due List -/

/-- Where `insertDue` puts an index: behind every one as near or nearer, before the next (R24). -/
theorem insertDue_split (dist : EntryIx → Nat) (i : EntryIx) (l : List EntryIx) :
    ∃ front back, l = front ++ back ∧ insertDue dist i l = front ++ i :: back ∧ (∀ j ∈ front, dist j ≤ dist i) ∧
      ∀ j ∈ back.head?, dist i < dist j := by
  induction l with
  | nil => exact ⟨[], [], rfl, rfl, by simp, by simp⟩
  | cons j rest ih =>
    by_cases h : dist j ≤ dist i
    · obtain ⟨front, back, h1, h2, h3, h4⟩ := ih
      refine ⟨j :: front, back, by simp [h1], by simp [insertDue, h, h2], ?_, h4⟩
      intro k hk
      rcases List.mem_cons.mp hk with rfl | hk
      · exact h
      · exact h3 k hk
    · exact ⟨[], j :: rest, rfl, by simp [insertDue, h], by simp, by simpa using h⟩

theorem mem_insertDue (dist : EntryIx → Nat) (i j : EntryIx) (l : List EntryIx) :
    j ∈ insertDue dist i l ↔ j = i ∨ j ∈ l := by
  obtain ⟨front, back, h1, h2, -, -⟩ := insertDue_split dist i l
  rw [h2, h1]
  simp
  tauto

theorem nodup_insertDue (dist : EntryIx → Nat) {i : EntryIx} {l : List EntryIx} (hl : l.Nodup) (hi : i ∉ l) :
    (insertDue dist i l).Nodup := by
  obtain ⟨front, back, rfl, h2, -, -⟩ := insertDue_split dist i l
  rw [h2]
  exact List.nodup_middle.mpr (List.nodup_cons.mpr ⟨hi, hl⟩)

/-- Inserting into a list ordered by distance leaves it ordered (R23, R24). -/
theorem pairwise_insertDue (dist : EntryIx → Nat) (i : EntryIx) {l : List EntryIx}
    (hl : l.Pairwise fun a b => dist a ≤ dist b) : (insertDue dist i l).Pairwise fun a b => dist a ≤ dist b := by
  induction l with
  | nil => simp [insertDue]
  | cons j rest ih =>
    obtain ⟨hj, hrest⟩ := List.pairwise_cons.mp hl
    by_cases h : dist j ≤ dist i
    · rw [insertDue, if_pos h]
      refine List.pairwise_cons.mpr ⟨?_, ih hrest⟩
      intro k hk
      rcases (mem_insertDue dist i k rest).mp hk with rfl | hk
      · exact h
      · exact hj k hk
    · rw [insertDue, if_neg h]
      refine List.pairwise_cons.mpr ⟨?_, hl⟩
      intro k hk
      rcases List.mem_cons.mp hk with rfl | hk
      · omega
      · exact le_trans (by omega) (hj k hk)

/-- The order in which `insertDue` places an index depends on the distances of that index and of the list alone. -/
theorem insertDue_congr {d d' : EntryIx → Nat} {i : EntryIx} {l : List EntryIx} (hi : d i = d' i)
    (hl : ∀ j ∈ l, d j = d' j) : insertDue d i l = insertDue d' i l := by
  induction l with
  | nil => rfl
  | cons j rest ih =>
    simp only [insertDue, hi, hl j (by simp), ih fun k hk => hl k (by simp [hk])]

theorem filter_ne_of_not_mem {i : EntryIx} {l : List EntryIx} (h : i ∉ l) : (l.filter fun j => !(j == i)) = l := by
  rw [List.filter_eq_self]
  intro j hj
  have : j ≠ i := fun e => h (e ▸ hj)
  simp [this]

/-- Giving a place its record and keeping the Due List: every other field is left alone. -/
theorem State.putEntry_eq (s : State) (i : EntryIx) (e : Option Entry) :
    s.putEntry i e =
      (s.setEntry i e).setDueList
        (if ((s.setEntry i e).dueOf i).isSome then
          insertDue (s.setEntry i e).dueDistance i (s.dueList.filter fun j => !(j == i))
        else s.dueList.filter fun j => !(j == i)) := by
  unfold State.putEntry State.schedule State.unschedule
  split <;> rfl

@[simp] theorem State.dueOf_setEntry_self (s : State) (i : EntryIx) (e : Option Entry) :
    (s.setEntry i e).dueOf i = e.bind fun e => e.progress.due := by
  unfold State.dueOf
  rw [State.entry_setEntry_self]
  cases e <;> rfl

@[simp] theorem State.dueOf_setEntry_ne (s : State) {i j : EntryIx} (h : i ≠ j) (e : Option Entry) :
    (s.setEntry i e).dueOf j = s.dueOf j := by
  unfold State.dueOf
  rw [State.entry_setEntry_ne s h]

/-- A due time depends on the Entry Table alone. -/
theorem State.dueOf_congr {s t : State} {i : EntryIx} (h : s.entry i = t.entry i) : s.dueOf i = t.dueOf i := by
  unfold State.dueOf
  rw [h]

/-- A distance depends on the count and the entry alone. -/
theorem State.dueDistance_congr {s t : State} {i : EntryIx} (hn : s.timebase.count = t.timebase.count)
    (h : s.entry i = t.entry i) : s.dueDistance i = t.dueDistance i := by
  unfold State.dueDistance State.now
  rw [State.dueOf_congr h, hn]

/-- A record with a due time, at an index that is not on the list: the list gains the index, and nothing else changes. -/
theorem State.putEntry_some (s : State) {i : EntryIx} {e : Entry} {d : Tick} (hd : e.progress.due = some d)
    (hi : i ∉ s.dueList) :
    ∃ front back, s.dueList = front ++ back ∧
      s.putEntry i (some e) = (s.setEntry i (some e)).setDueList (front ++ i :: back) ∧
      (∀ j ∈ front, s.dueDistance j ≤ distance s.now d) ∧ ∀ j ∈ back.head?, distance s.now d < s.dueDistance j := by
  have hne : ∀ j ∈ s.dueList, (s.setEntry i (some e)).dueDistance j = s.dueDistance j := by
    intro j hj
    have hji : i ≠ j := fun h => hi (h ▸ hj)
    exact State.dueDistance_congr rfl (State.entry_setEntry_ne s hji _)
  have hself : (s.setEntry i (some e)).dueDistance i = distance s.now d := by
    unfold State.dueDistance
    rw [State.dueOf_setEntry_self]
    simp [hd, State.now]
  obtain ⟨front, back, h1, h2, h3, h4⟩ := insertDue_split (s.setEntry i (some e)).dueDistance i s.dueList
  refine ⟨front, back, h1, ?_, ?_, ?_⟩
  · rw [State.putEntry_eq, State.dueOf_setEntry_self, filter_ne_of_not_mem hi]
    simp [hd, h2]
  · intro j hj
    have := h3 j hj
    rwa [hne j (by simp [h1, hj]), hself] at this
  · intro j hj
    have := h4 j hj
    have hm : j ∈ s.dueList := by
      rw [h1]
      exact List.mem_append_right _ (List.mem_of_mem_head? hj)
    rwa [hne j hm, hself] at this

/-- A record without a due time, or none: the index leaves the list. -/
theorem State.putEntry_none (s : State) {i : EntryIx} {e : Option Entry}
    (hd : (e.bind fun e => e.progress.due) = none) :
    s.putEntry i e = (s.setEntry i e).setDueList (s.dueList.filter fun j => !(j == i)) := by
  rw [State.putEntry_eq, State.dueOf_setEntry_self, hd]
  simp

@[simp] theorem State.putEntry_timebase (s : State) (i : EntryIx) (e : Option Entry) :
    (s.putEntry i e).timebase = s.timebase := by rw [State.putEntry_eq]; rfl
@[simp] theorem State.putEntry_entries (s : State) (i : EntryIx) (e : Option Entry) :
    (s.putEntry i e).entries = s.entries.set i.val e := by rw [State.putEntry_eq]; rfl
@[simp] theorem State.putEntry_lines (s : State) (i : EntryIx) (e : Option Entry) :
    (s.putEntry i e).lines = s.lines := by rw [State.putEntry_eq]; rfl
@[simp] theorem State.putEntry_halt (s : State) (i : EntryIx) (e : Option Entry) :
    (s.putEntry i e).halt = s.halt := by rw [State.putEntry_eq]; rfl
@[simp] theorem State.putEntry_channels (s : State) (i : EntryIx) (e : Option Entry) :
    (s.putEntry i e).channels = s.channels := by rw [State.putEntry_eq]; rfl
@[simp] theorem State.putEntry_reports (s : State) (i : EntryIx) (e : Option Entry) :
    (s.putEntry i e).reports = s.reports := by rw [State.putEntry_eq]; rfl
@[simp] theorem State.putEntry_link (s : State) (i : EntryIx) (e : Option Entry) :
    (s.putEntry i e).link = s.link := by rw [State.putEntry_eq]; rfl
@[simp] theorem State.putEntry_hold (s : State) (i : EntryIx) (e : Option Entry) :
    (s.putEntry i e).hold = s.hold := by rw [State.putEntry_eq]; rfl
@[simp] theorem State.putEntry_pending (s : State) (i : EntryIx) (e : Option Entry) :
    (s.putEntry i e).pending = s.pending := by rw [State.putEntry_eq]; rfl

theorem State.entry_putEntry (s : State) (i j : EntryIx) (e : Option Entry) :
    (s.putEntry i e).entry j = if i = j then e else s.entry j := by
  rw [State.putEntry_eq, State.entry_setDueList, State.entry_setEntry]

theorem State.mem_dueList_putEntry (s : State) (i j : EntryIx) (e : Option Entry) :
    j ∈ (s.putEntry i e).dueList ↔
      if j = i then (e.bind fun e => e.progress.due).isSome = true else j ∈ s.dueList := by
  rw [State.putEntry_eq, State.setDueList_dueList, State.dueOf_setEntry_self]
  split <;> split <;> simp_all [mem_insertDue]

theorem State.nodup_dueList_putEntry (s : State) (i : EntryIx) (e : Option Entry) (h : s.dueList.Nodup) :
    (s.putEntry i e).dueList.Nodup := by
  rw [State.putEntry_eq, State.setDueList_dueList]
  split
  · exact nodup_insertDue _ (h.filter _) (by simp)
  · exact h.filter _

/-- What the operations of the Timeline leave alone: the Halt Unit, the channels, the Report Queue, the link, the hold, the
waiting commands, and the timebase. -/
structure SameOutsideTimeline (s t : State) : Prop where
  timebase : t.timebase = s.timebase
  halt : t.halt = s.halt
  channels : t.channels = s.channels
  reports : t.reports = s.reports
  link : t.link = s.link
  hold : t.hold = s.hold
  pending : t.pending = s.pending

theorem SameOutsideTimeline.refl (s : State) : SameOutsideTimeline s s := ⟨rfl, rfl, rfl, rfl, rfl, rfl, rfl⟩

theorem SameOutsideTimeline.trans {s t u : State} (h : SameOutsideTimeline s t) (k : SameOutsideTimeline t u) :
    SameOutsideTimeline s u :=
  ⟨k.timebase.trans h.timebase, k.halt.trans h.halt, k.channels.trans h.channels, k.reports.trans h.reports,
    k.link.trans h.link, k.hold.trans h.hold, k.pending.trans h.pending⟩

theorem sameOutside_setEntry (s : State) (i : EntryIx) (e : Option Entry) : SameOutsideTimeline s (s.setEntry i e) :=
  ⟨rfl, rfl, rfl, rfl, rfl, rfl, rfl⟩

theorem sameOutside_setDueList (s : State) (l : List EntryIx) : SameOutsideTimeline s (s.setDueList l) :=
  ⟨rfl, rfl, rfl, rfl, rfl, rfl, rfl⟩

theorem sameOutside_setLine (s : State) (n : LineIx) (l : OutLine) : SameOutsideTimeline s (s.setLine n l) :=
  ⟨rfl, rfl, rfl, rfl, rfl, rfl, rfl⟩

theorem sameOutside_putEntry (s : State) (i : EntryIx) (e : Option Entry) : SameOutsideTimeline s (s.putEntry i e) := by
  constructor <;> simp

theorem sameOutside_act (s : State) (n : LineIx) (a : LevelAction) : SameOutsideTimeline s (s.act n a) :=
  sameOutside_setLine _ _ _

theorem sameOutside_actTrailing (s : State) (p : Plan) : SameOutsideTimeline s (s.actTrailing p) := by
  unfold State.actTrailing
  split
  · exact sameOutside_act _ _ _
  · exact SameOutsideTimeline.refl s

theorem sameOutside_foldl {α : Type} {f : State → α → State} (hf : ∀ s a, SameOutsideTimeline s (f s a)) (l : List α)
    (s : State) : SameOutsideTimeline s (l.foldl f s) := by
  induction l generalizing s with
  | nil => exact SameOutsideTimeline.refl s
  | cons a l ih => exact (hf s a).trans (ih _)

/-! ### Serving a due time (sections 3.1, 5.5) -/

theorem sameOutside_fireDue (s : State) (i : EntryIx) (e : Entry) (due : Tick) (r : Quantity) :
    SameOutsideTimeline s (s.fireDue i e due r) := by
  unfold State.fireDue
  cases e.plan.action.width <;> exact (sameOutside_act _ _ _).trans (sameOutside_putEntry _ _ _)

theorem sameOutside_missDue (s : State) (i : EntryIx) (e : Entry) (due : Tick) (r : Quantity) :
    SameOutsideTimeline s (s.missDue i e due r) := sameOutside_putEntry _ _ _

theorem sameOutside_serveEntry (s : State) (i : EntryIx) : SameOutsideTimeline s (s.serveEntry i) := by
  unfold State.serveEntry
  split
  · split
    · split
      · exact sameOutside_missDue _ _ _ _ _
      · exact sameOutside_fireDue _ _ _ _ _
    · split
      · exact sameOutside_putEntry _ _ _
      · exact (sameOutside_actTrailing _ _).trans (sameOutside_putEntry _ _ _)
    · exact SameOutsideTimeline.refl s
  · exact SameOutsideTimeline.refl s

theorem sameOutside_serveDue (n : Nat) (s : State) : SameOutsideTimeline s (State.serveDue n s) := by
  induction n generalizing s with
  | zero => exact SameOutsideTimeline.refl s
  | succ n ih =>
    unfold State.serveDue
    split
    · exact SameOutsideTimeline.refl s
    · split
      · exact ((sameOutside_setDueList _ _).trans (sameOutside_serveEntry _ _)).trans (ih _)
      · exact SameOutsideTimeline.refl s

/-- One head whose due time is reached is taken and served, and the heads behind it come next (R39). -/
theorem State.serveDue_head {s : State} {i : EntryIx} {rest : List EntryIx} (hl : s.dueList = i :: rest)
    (hr : s.dueReached i = true) (n : Nat) :
    State.serveDue (n + 1) s = State.serveDue n ((s.unschedule i).serveEntry i) := by
  rw [State.serveDue, hl]
  simp [hr]

/-- A head that is not reached ends the serving (R39). -/
theorem State.serveDue_ahead {s : State} {i : EntryIx} {rest : List EntryIx} (hl : s.dueList = i :: rest)
    (hr : s.dueReached i = false) (n : Nat) : State.serveDue n s = s := by
  cases n with
  | zero => rfl
  | succ n =>
    rw [State.serveDue, hl]
    simp [hr]

/-- An advance raises the count by one and leaves everything but the Timeline's entries, its list and the lines alone. -/
theorem sameOutside_advance (s : State) :
    SameOutsideTimeline (s.setTimebase { s.timebase with count := s.timebase.count + 1 }) s.advance :=
  sameOutside_serveDue _ _

theorem sameOutside_beginLate (s : State) (i : EntryIx) (e : Entry) (start : Tick) (late : Bool) :
    SameOutsideTimeline s (s.beginLate i e start late) := by
  unfold State.beginLate
  cases e.plan.action.width with
  | none => exact (sameOutside_act _ _ _).trans (sameOutside_putEntry _ _ _)
  | some w =>
    dsimp only
    split
    · exact ((sameOutside_act _ _ _).trans (sameOutside_actTrailing _ _)).trans (sameOutside_putEntry _ _ _)
    · exact (sameOutside_act _ _ _).trans (sameOutside_putEntry _ _ _)

theorem sameOutside_beginMissed (s : State) (i : EntryIx) (e : Entry) (start : Tick) :
    SameOutsideTimeline s (s.beginMissed i e start) := sameOutside_putEntry _ _ _

theorem sameOutside_countTrailingDone (s : State) (i : EntryIx) : SameOutsideTimeline s (s.countTrailingDone i) := by
  unfold State.countTrailingDone
  split
  · split
    · exact sameOutside_putEntry _ _ _
    · exact SameOutsideTimeline.refl s
  · exact SameOutsideTimeline.refl s

theorem sameOutside_enterHalted (s : State) : SameOutsideTimeline s s.enterHalted := by
  have h : SameOutsideTimeline s { s with lines := s.lines.map OutLine.forceSafe } := ⟨rfl, rfl, rfl, rfl, rfl, rfl, rfl⟩
  exact h.trans (sameOutside_foldl sameOutside_countTrailingDone _ _)

/-! ### Adding a halt cause (R75, R81, R88) -/

/-- What adding a cause can do: nothing when it is present; the cause and the slot when HALTED; with the entry into HALTED
when RUNNING. -/
theorem State.addCause_cases (s : State) (c : Causes) :
    (c.within s.halt.causes = true ∧ s.addCause c = s) ∨
      (c.within s.halt.causes = false ∧ s.halted = true ∧
        s.addCause c = s.setHalt ({ s.halt with causes := s.halt.causes.union c }.openSlot c)) ∨
      (c.within s.halt.causes = false ∧ s.halted = false ∧
        s.addCause c = (s.setHalt ({ s.halt with causes := s.halt.causes.union c }.openSlot c)).enterHalted) := by
  unfold State.addCause
  by_cases h : c.within s.halt.causes = true
  · exact .inl ⟨h, by simp [h]⟩
  · by_cases k : s.halted = true
    · exact .inr (.inl ⟨by simpa using h, k, by simp [h, k]⟩)
    · exact .inr (.inr ⟨by simpa using h, by simpa using k, by simp [h, k]⟩)

/-- Adding a cause leaves the timebase, the channels, the Report Queue, the link, the hold and the waiting commands. -/
theorem State.addCause_frame (s : State) (c : Causes) :
    (s.addCause c).timebase = s.timebase ∧ (s.addCause c).channels = s.channels ∧
      (s.addCause c).reports = s.reports ∧ (s.addCause c).link = s.link ∧ (s.addCause c).hold = s.hold ∧
      (s.addCause c).pending = s.pending := by
  rcases s.addCause_cases c with ⟨-, h⟩ | ⟨-, -, h⟩ | ⟨-, -, h⟩
  · rw [h]; simp
  · rw [h]; simp
  · rw [h]
    have k := sameOutside_enterHalted (s.setHalt ({ s.halt with causes := s.halt.causes.union c }.openSlot c))
    exact ⟨k.timebase, k.channels, k.reports, k.link, k.hold, k.pending⟩

end Sys2Proof.Machine
end

