-- ==== Sys2Proof/Laws/LinkOps.lean ====
section
/-! SUPPORT. What the shared operations of the Link Controller can do, said once: the transmitter's choice, the taking and
the waiting of a request frame, the execution of one. -/

namespace Sys2Proof.Machine

/-! ### The transmitter's choice -/

/-- The transmitter's choice changes only the Report Queue and the link. -/
theorem State.transmitChoice_frame (s : State) :
    s.transmitChoice.timebase = s.timebase ∧ s.transmitChoice.entries = s.entries ∧
      s.transmitChoice.dueList = s.dueList ∧ s.transmitChoice.lines = s.lines ∧ s.transmitChoice.halt = s.halt ∧
      s.transmitChoice.channels = s.channels ∧ s.transmitChoice.hold = s.hold ∧
      s.transmitChoice.pending = s.pending := by
  unfold State.transmitChoice
  repeat' split
  all_goals simp

/-- What the transmitter's choice can do: nothing; take the answer waiting; take the report the queue offers. -/
theorem State.transmitChoice_cases (s : State) :
    s.transmitChoice = s ∨
      (∃ a, s.hold = none ∧ s.link.tx = none ∧ s.link.waiting = some a ∧
        s.transmitChoice = s.setLink { s.link with waiting := none, tx := some ⟨.answer a, 0⟩ }) ∨
      (∃ k r, s.hold = none ∧ s.link.tx = none ∧ s.link.waiting = none ∧ s.reports.offered = some k ∧
        s.reports.reports[k]? = some r ∧
        s.transmitChoice =
          (s.setReports (s.reports.take k)).setLink { s.link with tx := some ⟨.report r.seq r.content, 0⟩ }) := by
  by_cases h : (s.hold.isSome || s.link.tx.isSome) = true
  · exact .inl (by simp [State.transmitChoice, h])
  · have h' : s.hold = none ∧ s.link.tx = none := by simpa using h
    cases hw : s.link.waiting with
    | some a => exact .inr (.inl ⟨a, h'.1, h'.2, rfl, by simp [State.transmitChoice, h, hw]⟩)
    | none =>
      cases ho : s.reports.offered with
      | none => exact .inl (by simp [State.transmitChoice, h, hw, ho])
      | some k =>
        cases hr : s.reports.reports[k]? with
        | none => exact .inl (by simp [State.transmitChoice, h, hw, ho, hr])
        | some r => exact .inr (.inr ⟨k, r, h'.1, h'.2, rfl, rfl, hr, by simp [State.transmitChoice, h, hw, ho, hr]⟩)

/-- With an answer waiting and no device reset holding, an idle transmitter takes it, and a sending one leaves it. -/
theorem State.transmitChoice_waiting {s : State} {a : Answer} (hh : s.hold = none) (hw : s.link.waiting = some a) :
    s.transmitChoice = s.setLink (s.link.sending a) := by
  unfold State.transmitChoice Link.sending
  cases ht : s.link.tx with
  | none => simp [hh, hw, State.setLink]
  | some f =>
    simp only [hh, Option.isSome_none, Option.isSome_some, Bool.or_true, if_true]
    rw [← hw, ← ht]
    rfl

/-! ### The taking of a request frame -/

/-- The state with the head frame of the request queue taken. -/
def State.dequeued (s : State) : State := s.setLink { s.link with requests := s.link.requests.tail }

theorem Link.cached_none {l : Link} {seq : Byte} (h : ∀ a ∈ l.cache, a.seq ≠ seq) : l.cached seq = none := by
  unfold Link.cached
  rw [List.find?_eq_none]
  intro a ha
  simpa using h a ha

/-- A frame that is executed: the queue loses it, its handler runs, its answer is stored and sent or waits. -/
theorem requestStep_executes (h : Handler) {f : Frame} {s : State} (hx : Executes s f)
    (hk : isRequestKind f.kind = true) (hl : f.body.length ≤ Config.maxBody)
    (hh : (h f.body s.dequeued).2.hold = none) :
    requestStep h f s =
      let r := h f.body s.dequeued
      r.2.setLink ((r.2.link.store (f.answer r.1)).sending (f.answer r.1)) := by
  obtain ⟨hold, hr, hw, hq, hc⟩ := hx
  have take : ∀ u : State, u.hold = none → u.link.restartTaken = false → u.link.waiting = none →
      u.link.requests.head? = some f → u.headIs f = true := by
    intro u a b c d
    simp [State.headIs, State.canTake, a, b, c, d]
  have run : ∀ u : State, u.link.cache = s.link.cache →
      u.dequeued =
        s.dequeued →
      u.takeHead h f =
        let r := h f.body s.dequeued
        r.2.setLink ((r.2.link.store (f.answer r.1)).sending (f.answer r.1)) := by
    intro u _ hu
    change (u.dequeued.executeFrame h f).transmitChoice = _
    rw [hu]
    unfold State.executeFrame
    have hn : s.dequeued.link.cached f.seq = none :=
      Link.cached_none hc
    rw [hn]
    exact State.transmitChoice_waiting (a := f.answer (h f.body _).1) hh rfl
  have hd : (!isRequestKind f.kind || decide (Config.maxBody < f.body.length)) = false := by
    simp [hk]; omega
  unfold requestStep
  rw [hold]
  simp only [Option.isSome_none, Bool.false_eq_true, if_false, hd]
  rcases hq with hq | hq
  · have h1 : s.headIs f = false := by simp [State.headIs, hq]
    have h2 : s.offerFrame f = s.setLink { s.link with requests := [f] } := by
      simp [State.offerFrame, hq, Config.requestPlaces]
    rw [h1]
    simp only [Bool.false_eq_true, if_false]
    rw [h2, if_pos (take (s.setLink { s.link with requests := [f] }) hold hr hw rfl)]
    exact run (s.setLink { s.link with requests := [f] }) rfl (by simp [State.dequeued, State.setLink, hq])
  · have h1 : s.headIs f = true := take s hold hr hw hq
    simp only [h1, if_true]
    exact run s rfl rfl

/-- A handler that leaves the link and the hold alone: the link after its request is `Link.answered`. -/
theorem requestStep_answered (h : Handler) {f : Frame} {s : State} (hx : Executes s f)
    (hk : isRequestKind f.kind = true) (hl : f.body.length ≤ Config.maxBody) {r : Reply} {t : State}
    (he : h f.body s.dequeued = (r, t))
    (ht : t.link = { s.link with requests := s.link.requests.tail }) (hh : t.hold = none) :
    requestStep h f s = t.setLink (s.link.answered (f.answer r)) := by
  rw [requestStep_executes h hx hk hl (by rw [he]; exact hh), he]
  dsimp only
  rw [ht]
  rfl

/-- A refused request changes nothing but the link (R170). -/
theorem requestStep_refused (h : Handler) {f : Frame} {s : State} (hx : Executes s f)
    (hk : isRequestKind f.kind = true) (hl : f.body.length ≤ Config.maxBody) {st : Status}
    (he : h f.body s.dequeued =
      refuse st s.dequeued) :
    requestStep h f s = s.setLink (s.link.answered ⟨f.kind + 0x80, f.seq, st, .none⟩) := by
  rw [requestStep_answered h hx hk hl he rfl hx.1]
  rfl

/-- A frame that cannot be taken now joins the queue or is an overrun. -/
theorem requestStep_waits (h : Handler) {f : Frame} {s : State} (hold : s.hold = none)
    (hk : isRequestKind f.kind = true) (hl : f.body.length ≤ Config.maxBody)
    (hw : (s.link.waiting ≠ none ∨ s.link.restartTaken = true) ∨
      (s.link.requests ≠ [] ∧ s.link.requests.head? ≠ some f)) :
    requestStep h f s = s.offerFrame f := by
  have hd : (!isRequestKind f.kind || decide (Config.maxBody < f.body.length)) = false := by
    simp [hk]; omega
  have h1 : s.headIs f = false := by
    rcases hw with (hw | hw) | hw
    · have : s.link.waiting.isNone = false := by
        cases h : s.link.waiting <;> simp_all
      simp [State.headIs, State.canTake, this]
    · simp [State.headIs, State.canTake, hw]
    · simp [State.headIs, hw.2]
  have h2 : (s.offerFrame f).headIs f = false := by
    unfold State.offerFrame
    rcases hw with (hw | hw) | hw
    · have : s.link.waiting.isNone = false := by
        cases h : s.link.waiting <;> simp_all
      split <;> simp [State.headIs, State.canTake, this]
    · split <;> simp [State.headIs, State.canTake, hw]
    · obtain ⟨g, l, hgl⟩ := List.exists_cons_of_ne_nil hw.1
      have hg : g ≠ f := by simpa [hgl] using hw.2
      split <;> simp [State.headIs, hgl, hg]
  unfold requestStep
  rw [hold]
  simp only [Option.isSome_none, Bool.false_eq_true, if_false, hd, h1, h2]

/-- Every kind of Table 11-3 is a request kind. -/
theorem isRequestKind_code (k : RequestKind) : isRequestKind k.code = true := by cases k <;> rfl

end Sys2Proof.Machine
end

