-- ==== Sys2Proof/Laws/Events.lean ====
section
/-! SUPPORT. What the events leave alone: trigger edges, the input channels, the receiver, the admission arbiter; and that
the Timeline's operations keep the Due List the list of the entries with a due time. -/

namespace Sys2Proof.Machine

/-! ### Trigger edges (R47) -/

theorem sameOutside_missTrigger (s : State) (i : EntryIx) (e : Entry) : SameOutsideTimeline s (s.missTrigger i e) := by
  unfold State.missTrigger
  dsimp only
  split
  · exact sameOutside_setEntry _ _ _
  · exact sameOutside_putEntry _ _ _

theorem sameOutside_serveTrigger (s : State) (i : EntryIx) (e : Entry) (delay stamp : Tick) :
    SameOutsideTimeline s (s.serveTrigger i e delay stamp) := by
  unfold State.serveTrigger
  dsimp only
  split
  · exact sameOutside_beginLate _ _ _ _ _
  · exact sameOutside_putEntry _ _ _

theorem sameOutside_offerEdge (c : ChanIx) (edge : Edge) (stamp : Tick) (s : State) (i : EntryIx) :
    SameOutsideTimeline s (State.offerEdge c edge stamp s i) := by
  unfold State.offerEdge
  split
  · exact SameOutsideTimeline.refl s
  · split
    · split
      · split
        · split
          · exact sameOutside_missTrigger _ _ _
          · exact sameOutside_serveTrigger _ _ _ _ _
        · exact sameOutside_setEntry _ _ _
        · exact sameOutside_setEntry _ _ _
        · exact SameOutsideTimeline.refl s
      · exact SameOutsideTimeline.refl s
    · exact SameOutsideTimeline.refl s

/-- Offering an edge touches only the entries, the Due List and the lines. -/
theorem sameOutside_offerTrigger (s : State) (c : ChanIx) (edge : Edge) (stamp : Tick) :
    SameOutsideTimeline s (s.offerTrigger c edge stamp) := by
  unfold State.offerTrigger
  split
  · exact sameOutside_foldl (sameOutside_offerEdge c edge stamp) _ _
  · exact SameOutsideTimeline.refl s

/-! ### Input channels (R91, R95) -/

/-- What an accepted edge on a channel leaves alone: the timebase, the Halt Unit, the Report Queue, the link, the hold, the
waiting commands, and every other channel. -/
structure SameBesideChannel (s t : State) (c : ChanIx) : Prop where
  timebase : t.timebase = s.timebase
  halt : t.halt = s.halt
  reports : t.reports = s.reports
  link : t.link = s.link
  hold : t.hold = s.hold
  pending : t.pending = s.pending
  channel : ∀ c', c' ≠ c → t.channel c' = s.channel c'

theorem SameBesideChannel.refl (s : State) (c : ChanIx) : SameBesideChannel s s c :=
  ⟨rfl, rfl, rfl, rfl, rfl, rfl, fun _ _ => rfl⟩

theorem SameBesideChannel.trans {s t u : State} {c : ChanIx} (h : SameBesideChannel s t c)
    (k : SameBesideChannel t u c) : SameBesideChannel s u c :=
  ⟨k.timebase.trans h.timebase, k.halt.trans h.halt, k.reports.trans h.reports, k.link.trans h.link, k.hold.trans h.hold,
    k.pending.trans h.pending, fun c' hc => (k.channel c' hc).trans (h.channel c' hc)⟩

theorem SameOutsideTimeline.besideChannel {s t : State} (h : SameOutsideTimeline s t) (c : ChanIx) :
    SameBesideChannel s t c :=
  ⟨h.timebase, h.halt, h.reports, h.link, h.hold, h.pending, fun c' _ => by
    unfold State.channel
    rw [h.channels]⟩

theorem besideChannel_setChannel (s : State) (c : ChanIx) (ch : Channel) : SameBesideChannel s (s.setChannel c ch) c :=
  ⟨rfl, rfl, rfl, rfl, rfl, rfl, fun c' hc => by rw [State.channel_setChannel_ne s (Ne.symm hc)]⟩

theorem besideChannel_captureEdge (s : State) (c : ChanIx) (edge : Edge) (stamp : Tick) :
    SameBesideChannel s (s.captureEdge c edge stamp) c := by
  unfold State.captureEdge State.journal
  dsimp only
  split <;> exact (besideChannel_setChannel _ _ _).trans (besideChannel_setChannel _ _ _)

/-- Distributing an edge touches, beside the channel, only what a trigger edge touches. -/
theorem besideChannel_distribute (s : State) (c : ChanIx) (edge : Edge) (stamp : Tick) :
    SameBesideChannel s (s.distribute c edge stamp) c := by
  unfold State.distribute
  split
  · exact SameBesideChannel.refl s c
  · split
    · refine SameBesideChannel.trans ?_ ((sameOutside_offerTrigger _ c edge stamp).besideChannel c)
      split
      · exact besideChannel_captureEdge s c edge stamp
      · exact SameBesideChannel.refl s c
    · exact SameBesideChannel.refl s c
  · exact (besideChannel_setChannel s c _).trans ((sameOutside_offerTrigger _ c edge stamp).besideChannel c)

theorem besideChannel_acceptEdge (s : State) (c : ChanIx) (stamp : Tick) :
    SameBesideChannel s (s.acceptEdge c stamp) c :=
  (besideChannel_setChannel s c _).trans (besideChannel_distribute _ c _ _)

theorem besideChannel_rawTransition (s : State) (c : ChanIx) : SameBesideChannel s (s.rawTransition c) c := by
  unfold State.rawTransition
  dsimp only
  split
  · exact (besideChannel_setChannel s c _).trans (besideChannel_acceptEdge _ c _)
  · exact besideChannel_setChannel s c _

/-! ### The receiver (section 9.2) -/

/-- A character changes the link alone. -/
theorem State.receive_onlyLink (s : State) (value : Byte) (stopBit : Bool) :
    ∃ l, s.receive value stopBit = s.setLink l := by
  have h0 : s = s.setLink s.link := rfl
  unfold State.receive
  split
  · split
    · exact ⟨_, rfl⟩
    · exact ⟨_, h0⟩
  · split
    · split
      · exact ⟨_, rfl⟩
      · split
        · exact ⟨_, rfl⟩
        · exact ⟨_, rfl⟩
    · exact ⟨_, rfl⟩
  · split
    · split <;> exact ⟨_, rfl⟩
    · exact ⟨_, rfl⟩
  · split
    · split
      · exact ⟨_, rfl⟩
      · unfold State.completeFrame
        dsimp only
        split
        · split
          · split
            · unfold State.offerFrame
              split <;> exact ⟨_, rfl⟩
            · exact ⟨_, rfl⟩
          · exact ⟨_, rfl⟩
        · exact ⟨_, rfl⟩
    · exact ⟨_, rfl⟩

/-! ### Admission (R131) -/

/-- An admission leaves the timebase, the Due List, the lines, the halt causes, the hold and the waiting commands. -/
theorem State.admitItem_frame (s : State) (item : Ready) :
    (s.admitItem item).timebase = s.timebase ∧ (s.admitItem item).dueList = s.dueList ∧
      (s.admitItem item).lines = s.lines ∧ (s.admitItem item).halt.causes = s.halt.causes ∧
      (s.admitItem item).hold = s.hold ∧ (s.admitItem item).pending = s.pending ∧ (s.admitItem item).link = s.link := by
  cases item <;> simp only [State.admitItem]
  · unfold State.admitHalt
    split <;> simp
  · unfold State.admitEntry
    split
    · split <;> simp
    · simp
  · unfold State.admitLevel
    split <;> simp
  · unfold State.admitBatch
    simp

/-! ### The Due List holds the entries with a due time (R23) -/

/-- Giving one place its record keeps the list, even when the place stood on it or off it wrongly before. -/
theorem dueListOk_putEntry {s : State} (i : EntryIx) (e : Option Entry) (hn : s.dueList.Nodup)
    (h : ∀ j, j ≠ i → (j ∈ s.dueList ↔ (s.dueOf j).isSome = true)) : DueListOk (s.putEntry i e) := by
  refine ⟨State.nodup_dueList_putEntry s i e hn, fun j => ?_⟩
  rw [State.mem_dueList_putEntry]
  have hd : (s.putEntry i e).dueOf j = if i = j then e.bind fun e => e.progress.due else s.dueOf j := by
    unfold State.dueOf
    rw [State.entry_putEntry]
    by_cases hij : i = j
    · simp only [if_pos hij]
      cases e <;> rfl
    · simp only [if_neg hij]
  rw [hd]
  by_cases hj : j = i
  · subst hj
    simp
  · simp [hj, Ne.symm hj, h j hj]

/-- Giving one place its record keeps a list that was right. -/
theorem dueListOk_put {s : State} (h : DueListOk s) (i : EntryIx) (e : Option Entry) : DueListOk (s.putEntry i e) :=
  dueListOk_putEntry i e h.1 fun j _ => h.2 j

/-- The list depends on the Entry Table alone. -/
theorem dueListOk_congr {s t : State} (he : t.entries = s.entries) (hd : t.dueList = s.dueList) (h : DueListOk s) :
    DueListOk t := by
  refine ⟨hd ▸ h.1, fun i => ?_⟩
  have : t.dueOf i = s.dueOf i := State.dueOf_congr (by unfold State.entry; rw [he])
  rw [hd, this]
  exact h.2 i

/-- Counting the trailing actions done at the entry into HALTED keeps the list. -/
theorem dueListOk_countTrailingDone {s : State} (h : DueListOk s) (i : EntryIx) : DueListOk (s.countTrailingDone i) := by
  unfold State.countTrailingDone
  split
  · split
    · exact dueListOk_put h _ _
    · exact h
  · exact h

theorem dueListOk_enterHalted {s : State} (h : DueListOk s) : DueListOk s.enterHalted := by
  unfold State.enterHalted
  have key : ∀ (l : List EntryIx) (t : State), DueListOk t → DueListOk (l.foldl State.countTrailingDone t) := by
    intro l
    induction l with
    | nil => exact fun _ ht => ht
    | cons i l ih => exact fun t ht => ih _ (dueListOk_countTrailingDone ht i)
  exact key _ _ (dueListOk_congr rfl rfl h)

theorem dueListOk_addCause {s : State} (h : DueListOk s) (c : Causes) : DueListOk (s.addCause c) := by
  rcases s.addCause_cases c with ⟨-, e⟩ | ⟨-, -, e⟩ | ⟨-, -, e⟩
  · rw [e]; exact h
  · rw [e]; exact dueListOk_congr rfl rfl h
  · rw [e]; exact dueListOk_enterHalted (dueListOk_congr rfl rfl h)

end Sys2Proof.Machine
end

