-- ==== Sys2Proof/Laws/Requests.lean ====
section
/-! SUPPORT. The shape of a request's execution: what its handler sees, and the state after it is answered OK or refused;
the conditions on entries that requests test, and those of the admission arbiter, as propositions. -/

namespace Sys2Proof.Machine

/-! ### What a handler sees: the state with the head frame taken -/

@[simp] theorem State.dequeued_timebase (s : State) : s.dequeued.timebase = s.timebase := rfl
@[simp] theorem State.dequeued_entries (s : State) : s.dequeued.entries = s.entries := rfl
@[simp] theorem State.dequeued_dueList (s : State) : s.dequeued.dueList = s.dueList := rfl
@[simp] theorem State.dequeued_lines (s : State) : s.dequeued.lines = s.lines := rfl
@[simp] theorem State.dequeued_halt (s : State) : s.dequeued.halt = s.halt := rfl
@[simp] theorem State.dequeued_channels (s : State) : s.dequeued.channels = s.channels := rfl
@[simp] theorem State.dequeued_reports (s : State) : s.dequeued.reports = s.reports := rfl
@[simp] theorem State.dequeued_hold (s : State) : s.dequeued.hold = s.hold := rfl
@[simp] theorem State.dequeued_pending (s : State) : s.dequeued.pending = s.pending := rfl
@[simp] theorem State.dequeued_link (s : State) :
    s.dequeued.link = { s.link with requests := s.link.requests.tail } := rfl
@[simp] theorem State.dequeued_entry (s : State) (i : EntryIx) : s.dequeued.entry i = s.entry i := rfl
@[simp] theorem State.dequeued_line (s : State) (n : LineIx) : s.dequeued.line n = s.line n := rfl
@[simp] theorem State.dequeued_channel (s : State) (c : ChanIx) : s.dequeued.channel c = s.channel c := rfl
@[simp] theorem State.dequeued_running (s : State) : s.dequeued.running = s.running := rfl
@[simp] theorem State.dequeued_halted (s : State) : s.dequeued.halted = s.halted := rfl
@[simp] theorem State.dequeued_anyLive (s : State) : s.dequeued.anyLive = s.anyLive := rfl
@[simp] theorem State.dequeued_lineHeld (s : State) (n : LineIx) : s.dequeued.lineHeld n = s.lineHeld n := rfl
@[simp] theorem State.dequeued_channelHeld (s : State) (c : ChanIx) : s.dequeued.channelHeld c = s.channelHeld c := rfl
@[simp] theorem State.dequeued_heldCount (s : State) (c : ChanIx) : s.dequeued.heldCount c = s.heldCount c := rfl
@[simp] theorem State.dequeued_heldTotal (s : State) : s.dequeued.heldTotal = s.heldTotal := rfl
@[simp] theorem State.dequeued_dueDistance (s : State) (i : EntryIx) : s.dequeued.dueDistance i = s.dueDistance i := rfl
@[simp] theorem State.dequeued_dueOf (s : State) (i : EntryIx) : s.dequeued.dueOf i = s.dueOf i := rfl

/-! ### The state after a request -/

/-- A request answered OK by a handler that leaves the link and the hold alone. -/
theorem requestStep_ok {h : Handler} {k : RequestKind} {seq : Byte} {body : List Byte} {s t : State}
    {fields : AnswerFields} (hx : Executes s (k.frame seq body)) (hl : body.length ≤ 512)
    (he : h body s.dequeued = (⟨.ok, fields⟩, t)) (ht : t.link = s.dequeued.link) (hh : t.hold = s.hold) :
    requestStep h (k.frame seq body) s = { t with link := s.link.answered (k.okAnswer seq fields) } :=
  requestStep_answered h hx (isRequestKind_code k) hl he ht (hh.trans hx.1)

/-- A request that its handler refuses. -/
theorem requestStep_no {h : Handler} {k : RequestKind} {seq : Byte} {body : List Byte} {s : State} {st : Status}
    (hx : Executes s (k.frame seq body)) (hl : body.length ≤ 512)
    (he : h body s.dequeued = refuse st s.dequeued) : requestStep h (k.frame seq body) s = s.refused k seq st :=
  requestStep_refused h hx (isRequestKind_code k) hl he

/-! ### Conditions on the entries -/

/-- The entries that satisfy a test, read from the table. -/
theorem State.any_entries_iff (s : State) (p : Entry → Bool) :
    (s.entries.toList.any fun e =>
      match e with
      | none => false
      | some e => p e) = true ↔ ∃ i : EntryIx, ∃ e ∈ s.entry i, p e = true := by
  simp only [List.any_eq_true, Vector.mem_toList_iff]
  constructor
  · rintro ⟨e, he, hp⟩
    obtain ⟨i, hi, rfl⟩ := Vector.getElem_of_mem he
    cases h : s.entries[i] with
    | none => simp [h] at hp
    | some e => exact ⟨⟨i, hi⟩, e, h, by simpa [h] using hp⟩
  · rintro ⟨i, e, he, hp⟩
    refine ⟨some e, ?_, hp⟩
    have h : s.entries[i.val] = some e := he
    exact h ▸ Vector.getElem_mem _

theorem Progress.live_iff (p : Progress) : p.live = true ↔ p ≠ .retired := by cases p <;> simp [Progress.live]

/-- The test of TIME-SETUP and TIME-SET (R9, R10). -/
theorem State.anyLive_iff (s : State) : s.anyLive = true ↔ LiveEntry s := by
  have h := s.any_entries_iff fun e => e.progress.live
  have he : liveEntry = fun e => match e with
      | none => false
      | some e => e.progress.live := by
    funext e
    cases e <;> rfl
  unfold State.anyLive
  rw [he, h]
  simp only [Progress.live_iff]

/-- The test of LINE-SETUP (R69, R71). -/
theorem State.lineHeld_iff (s : State) (n : LineIx) : s.lineHeld n = true ↔ LineClaimed s n := by
  have h := s.any_entries_iff fun e => e.progress.live && decide (e.plan.line = n)
  refine (show s.lineHeld n = true ↔ _ from h).trans ?_
  simp [LineClaimed, Progress.live_iff]

/-- The test of CHANNEL-SETUP (R103). -/
theorem State.channelHeld_iff (s : State) (c : ChanIx) :
    s.channelHeld c = true ↔ ∃ i : EntryIx, ∃ e ∈ s.entry i, e.couldWaitOn c = true :=
  s.any_entries_iff fun e => e.couldWaitOn c

/-! ### What the admission arbiter tests (R131, R132) -/

/-- The slot of an entry is pending (R52, R131). -/
theorem State.entryReady_iff (s : State) (i : EntryIx) : s.entryReady i = true ↔ SlotPending s i := by
  unfold State.entryReady SlotPending
  cases s.entry i with
  | none => simp
  | some e => cases h : e.slot <;> simp [h]

/-- What the notice class would serve: the halt slot, else an entry slot, else a level slot (R132). -/
theorem State.readyNotice_cases (s : State) (item : Ready) (h : s.readyNotice = some item) :
    (item = .halt ∧ s.halt.slot.isSome = true) ∨
      (s.halt.slot = none ∧ ∃ i, item = .entry i ∧ s.entryReady i = true) ∨
      (s.halt.slot = none ∧ ∃ c, item = .level c ∧ (s.channel c).level.isSome = true) := by
  unfold State.readyNotice at h
  split at h
  · simp_all
  · rename_i hn
    have hn : s.halt.slot = none := by simpa using hn
    split at h
    · rename_i i hi
      exact .inr (.inl ⟨hn, i, by simpa using h.symm, by simpa using List.find?_some hi⟩)
    · obtain ⟨c, hc, rfl⟩ := Option.map_eq_some_iff.mp h
      exact .inr (.inr ⟨hn, c, rfl, by simpa using List.find?_some hc⟩)

end Sys2Proof.Machine
end

