-- ==== Sys2Proof/WellFormed.lean ====
section
/-! DEFINITION. Which commands the outside world can send.

Channel numbers are in range by their type. What is left: a frame's body fits the length field (R152), UNKNOWN is a
request kind that names no request (R168), and the frame of a cached answer has a request kind (R156). -/

namespace Sys2Proof

/-- A body that a frame can carry: at most 512 bytes (Table 11-1, R152). -/
def bodyFits (body : List Byte) : Bool := decide (body.length ≤ Config.maxBody)

/-- A request kind that names no request (R168). -/
def kindUnnamed (kind : Byte) : Bool := isRequestKind kind && (RequestKind.ofByte kind).isNone

/-- The commands that can come about. -/
def Instr.wellFormed : Instr → Bool
  | .hello _ b => bodyFits b
  | .status _ b => bodyFits b
  | .restart _ b => bodyFits b
  | .unknown k _ b => kindUnnamed k && bodyFits b
  | .answerCacheResend k _ b => isRequestKind k && bodyFits b
  | .ack _ b => bodyFits b
  | .reportsOn _ b => bodyFits b
  | .linkSetup _ b => bodyFits b
  | .linkReset _ b => bodyFits b
  | .timeSetup _ b => bodyFits b
  | .timeSet _ b => bodyFits b
  | .timeRun _ b => bodyFits b
  | .timeStop _ b => bodyFits b
  | .timeRead _ b => bodyFits b
  | .place _ b => bodyFits b
  | .entryQuery _ b => bodyFits b
  | .entryList _ b => bodyFits b
  | .cancel _ b => bodyFits b
  | .timelineClear _ b => bodyFits b
  | .lineSetup _ b => bodyFits b
  | .lineWrite _ b => bodyFits b
  | .linesRead _ b => bodyFits b
  | .halt _ b => bodyFits b
  | .resume _ b => bodyFits b
  | .stopSetup _ b => bodyFits b
  | .channelSetup _ b => bodyFits b
  | .channelQuery _ b => bodyFits b
  | .flush _ b => bodyFits b
  | .internalTick => true
  | .cntRisingEdge => true
  | .rawTransition _ => true
  | .glitch _ => true
  | .edgeAccepted _ => true
  | .stopWindowOpen => true
  | .stopGlitch => true
  | .stopLevelAccepted => true
  | .lingerExpiry _ => true
  | .reportTimerExpiry => true
  | .admission => true
  | .rxCharacter _ _ => true
  | .gapAbort => true
  | .txFrameEnd => true
  | .powerOn => true
  | .resetPin => true
  | .resetEnd _ _ _ _ => true

end Sys2Proof
end

