-- ==== Sys2Proof/Tests/Slice0.lean ====
section
/-! SUPPORT. Tests: commands that cannot come about are refused by `wellFormed`; single steps with values taken from the
spec; a state and operands that meet the hypotheses of each statement. -/

namespace Sys2Proof.Tests

-- The tests evaluate one step on a whole state: deep terms, little work.
set_option maxRecDepth 100000

open Sys2Proof Sys2Proof.Machine

/-! ### Helpers -/

/-- The state a command answers. -/
def after (c : Instr) (s : State) : State :=
  match exec c s with
  | .next t => t
  | _ => s

/-- The newest cached answer: its kind, its number, its status. -/
def newest (s : State) : Option (Byte × Byte × Status) := s.link.cache.getLast?.map fun a => (a.kind, a.seq, a.status)

/-- The bytes of the newest answer's fields. -/
def fields (s : State) : Option (List Byte) := s.link.cache.getLast?.map fun a => a.fields.bytes

/-- Line 3 TIMED, the timebase RUNNING at 100. -/
def run : State :=
  (State.reset.setLine 3 ⟨.timed, false, false, false⟩).setTimebase
    { State.reset.timebase with state := .running, count := 100 }

/-- A plan of one SET on line 3 at 110. -/
def once : Plan := ⟨7, 3, .setLine, .atTime 110 .fire, none, true, true⟩

/-- A plan of five pulses of 10 on line 3, every 50 from 110 on. -/
def pulses : Plan := ⟨7, 3, .pulseHigh 10, .atTime 110 .fire, some ⟨50, 5⟩, true, true⟩

/-- A plan of TOGGLEs on line 3 that a rise on channel 1 starts, 5 after the edge, twice. -/
def armed : Plan := ⟨8, 3, .toggleLine, .onTrigger 1 .rise 5 2, none, true, true⟩

/-- The plan stands PENDING at entry 2, due at the given time. -/
def pendingAt (p : Plan) (due : Tick) (r : Quantity) (s : State) : State :=
  (s.setEntry 2 (some ⟨p, .pending due r, p.start.arms.map Quantity.ofLimit, .empty⟩)).setDueList [2]

/-- The plan stands TRAILING at entry 2, due at the given time with the given lead. -/
def trailingAt (p : Plan) (due lead : Tick) (r : Quantity) (c : Bool) (s : State) : State :=
  (s.setEntry 2 (some ⟨p, .trailing due lead r c, none, .empty⟩)).setDueList [2]

/-- The plan stands WAITING at entry 2. -/
def waitingAt (p : Plan) (s : State) : State :=
  s.setEntry 2 (some ⟨p, .waiting, p.start.arms.map Quantity.ofLimit, .empty⟩)

/-- A timeline HALTED by REQUEST. -/
def haltedBy (s : State) : State := s.setHalt { s.halt with causes := Causes.ofRequest }

/-- Channel 1 in a mode, with its window open since the given stamp. -/
def windowOn (m : ChannelMode) (stamp : Tick) (s : State) : State :=
  s.setChannel 1
    { s.channel 1 with setup := { ChannelSetup.afterReset with mode := m }, raw := true, window := some ⟨stamp, 0⟩ }

/-- A report sent, with the given number. -/
def sentReport (n : Byte) : Report := ⟨n, .halt false Causes.empty Causes.ofRequest true, true, false, false⟩

/-- Reports 0 and 1 sent, report 2 unsent, the timer running. -/
def reporting : State :=
  State.reset.setReports
    { ReportQueue.afterReset with
      reports := [sentReport 0, sentReport 1, ⟨2, .batch 1 0 [⟨.rise, 5, none, false⟩], false, false, false⟩]
      nextSeq := 3, timer := some 7 }

/-- A queue in the report state SILENT. -/
def silent : State := reporting.setReports { reporting.reports with state := .silent, timer := none }

/-- A busy state: a PENDING entry, a captured record, a WATCH channel, a sent report, a cached answer. -/
def busy : State :=
  let s := pendingAt pulses 110 (.number 5) run
  let s := s.setChannel 4
    { s.channel 4 with setup := { ChannelSetup.afterReset with mode := .capture }, unreported := [⟨.rise, 90, none, false⟩] }
  let s := s.setReports { ReportQueue.afterReset with reports := [sentReport 0], nextSeq := 1, timer := some 20 }
  s.setLink { s.link with cache := [⟨0x92, 1, .ok, .tick 0⟩] }

/-! ### Commands that cannot come about -/

theorem test_body_too_long_ill_formed : (Instr.hello 0 (List.replicate 513 0)).wellFormed = false := by
  decide
theorem test_body_of_512_fits : (Instr.hello 0 (List.replicate 512 0)).wellFormed = true := by
  decide
theorem test_unknown_named_kind_ill_formed : (Instr.unknown 0x01 0 []).wellFormed = false := by decide
theorem test_unknown_no_request_kind_ill_formed : (Instr.unknown 0x30 0 []).wellFormed = false := by decide
theorem test_unknown_long_body_ill_formed : (Instr.unknown 0x05 0 (List.replicate 513 0)).wellFormed = false := by
  decide
theorem test_unknown_well_formed : (Instr.unknown 0x05 0 []).wellFormed = true := by decide
theorem test_resend_no_request_kind_ill_formed : (Instr.answerCacheResend 0x00 0 []).wellFormed = false := by decide
theorem test_resend_long_body_ill_formed :
    (Instr.answerCacheResend 0x01 0 (List.replicate 513 0)).wellFormed = false := by decide
theorem test_no_word_spells_a_command : decodeTableWord 8 0x01 = none := by decide

/-! ### Frames (chapters 9 and 11) -/

/-- R156: after the seven characters of the HELLO request with number 0 (section 11.1) its frame stands in the queue. -/
theorem test_hello_frame_received :
    (feed [0xC3, 0x02, 0x00, 0x01, 0x00, 0x99, 0x5A] State.reset).link.requests = [⟨0x01, 0x00, []⟩] := by
  decide

/-- R179: the published check value of this CRC, over the nine characters "123456789". -/
theorem test_crc_check_value :
    crc [0x31, 0x32, 0x33, 0x34, 0x35, 0x36, 0x37, 0x38, 0x39] = 0x29B1 := by decide

/-- R156: a good frame of an answer kind is a framing error. -/
theorem test_answer_kind_is_framing_error :
    (feed (frameBytes 0x81 0 []) State.reset).link.framing = 1 := by decide

/-- R151: a start byte leaves HUNT; R155: the gap abort is counted and the receiver hunts again. -/
theorem test_start_byte_and_gap_abort :
    (after (.rxCharacter 0xC3 true) State.reset).link.receiver = .length [] ∧
      (after .gapAbort (after (.rxCharacter 0xC3 true) State.reset)).link.gapAborts = 1 ∧
        (after .gapAbort (after (.rxCharacter 0xC3 true) State.reset)).link.receiver = .hunt := by decide

/-- R159, R137: the end of the head report's frame starts the report timer of 50 ms, which has 51 steps to go. -/
theorem test_frame_end_starts_report_timer :
    (after .txFrameEnd State.reset.transmitChoice).reports.timer = some 51 := by decide

/-! ### Link Controller -/

/-- R172, Table 11-1: family code 0x1610, revision 1, the capacities, 115,200 baud. -/
theorem test_hello :
    fields (after (.hello 4 []) State.reset) =
      some [0x10, 0x16, 1, 16, 0, 16, 0, 64, 0, 0, 1, 32, 0, 8, 0, 4, 0, 0x00, 0xC2, 0x01, 0x00] := by decide

/-- R174: the clear flag empties the link error counters. -/
theorem test_status_clears :
    (after (.status 4 [1]) (after (.rxCharacter 0 false) (after (.rxCharacter 0xC3 true) State.reset))).link.framing =
      0 := by decide

/-- R173: a clear flag of 2 is answered VALUE. -/
theorem test_status_value : newest (after (.status 4 [2]) State.reset) = some (0x82, 4, .value) := by decide

/-- R175: after a RESTART a further request is not taken. -/
theorem test_restart : newest (after (.hello 5 []) (after (.restart 4 []) State.reset)) = some (0x83, 4, .ok) := by
  decide

/-- R168: an undefined request kind is answered UNKNOWN. -/
theorem test_unknown : newest (after (.unknown 0x05 9 [1, 2, 3]) State.reset) = some (0x85, 9, .unknown) := by
  decide

/-- R165: a request with a cached number sends the cached answer, whatever its kind. -/
theorem test_answer_cache_resend :
    (after (.answerCacheResend 0x01 1 []) busy).link.tx = some ⟨.answer ⟨0x92, 1, .ok, .tick 0⟩, 0⟩ := by
  decide

/-! ### Report Queue -/

/-- R141: ACK 1 acknowledges reports 0 and 1. -/
theorem test_ack : (after (.ack 4 [1]) reporting).reports.reports.map Report.seq = [2] := by decide

/-- R142: 255 is stale when the head is number 0; 200 is not. -/
theorem test_ack_stale :
    newest (after (.ack 4 [255]) reporting) = some (0x88, 4, .ok) ∧
      newest (after (.ack 4 [200]) reporting) = some (0x88, 4, .value) := by decide

/-- R144: the sent reports are marked, and the state is FLOWING. -/
theorem test_reports_on :
    (after (.reportsOn 4 []) silent).reports.reports.map Report.resend = [true, true, false] := by decide

/-- R145: 4 ms is too short a timeout, and 1,000 ms is not too long. -/
theorem test_link_setup :
    newest (after (.linkSetup 4 [4, 0, 0, 0]) State.reset) = some (0x8A, 4, .value) ∧
      (after (.linkSetup 4 [0xE8, 0x03, 15, 1]) State.reset).reports.timeout = 1000 := by decide

/-- R146, R123: the record of the discarded batch returns to channel 1. -/
theorem test_link_reset :
    ((after (.linkReset 4 []) reporting).channel 1).unreported = [⟨.rise, 5, none, false⟩] ∧
      fields (after (.linkReset 4 []) reporting) = some [2, 0, 1, 0, 1, 0] := by decide

/-- R138: the first expiry goes back, with the retry count at 1. -/
theorem test_report_timer_expiry : (after .reportTimerExpiry reporting).reports.retries = 1 := by decide

/-- R131, R133: the notice class is served first after reset, and a HALT notice becomes report 1. -/
theorem test_admission :
    ((after .admission (after (.halt 4 []) State.reset)).reports.reports.map Report.seq) = [0, 1] := by decide

/-! ### Timebase -/

/-- R9: source EXTERNAL with divider 0x0100. -/
theorem test_time_setup :
    (after (.timeSetup 4 [1, 0, 1]) State.reset).timebase.divider = 256 ∧
      newest (after (.timeSetup 4 [0, 0, 0]) State.reset) = some (0x90, 4, .value) := by decide

/-- R10: the count takes the four bytes, the low byte first. -/
theorem test_time_set : (after (.timeSet 4 [1, 2, 3, 4]) State.reset).timebase.count = 0x04030201 := by decide

theorem test_time_run : (after (.timeRun 4 []) State.reset).timebase.state = .running := by decide
theorem test_time_stop : (after (.timeStop 4 []) run).timebase.state = .stopped := by decide
theorem test_time_read : fields (after (.timeRead 4 []) run) = some [100, 0, 0, 0, 1, 0, 24, 0] := by decide

/-- R1: the count wraps from 2^32 - 1 to 0. -/
theorem test_tick_wraps :
    (after .internalTick (run.setTimebase { run.timebase with count := 0xFFFFFFFF })).timebase.count = 0 := by
  decide

/-- R4: with source INTERNAL an edge on CNT does not count. -/
theorem test_cnt_edge :
    (after .cntRisingEdge run).timebase.count = 100 ∧
      (after .cntRisingEdge (run.setTimebase { run.timebase with source := .external })).timebase.count = 101 := by
  decide

/-- R39, R43: a SET (entry 3) and a CLEAR (entry 5) of line 3 are due at 101, and an edge on CNT advances the count to it:
both are performed, in list order, and the line has the level of the later. -/
theorem test_two_due_at_one_edge :
    (let s := (run.setTimebase { run.timebase with source := .external }).setEntry 3
      (some ⟨{ once with final := false }, .pending 101 (.number 1), none, .empty⟩)
    let s := s.setEntry 5 (some ⟨{ once with action := .clearLine }, .pending 101 (.number 1), none, .empty⟩)
    let low := after .cntRisingEdge (s.setDueList [3, 5])
    let high := after .cntRisingEdge (s.setDueList [5, 3])
    ((low.line 3).timed, (high.line 3).timed, low.dueList, low.entry 3, (low.entry 5).map Entry.progress)) =
      (false, true, [], none, some .retired) := by decide

/-! ### Timeline -/

/-- R5, R7: a time 2^31 - 1 behind is reached, one 2^31 behind is not. -/
theorem test_reached_boundary : reached 0x7FFFFFFF 0 = true ∧ reached 0x80000000 0 = false := by decide

/-- R34, R16: a start ahead is PENDING at entry 0, the lowest FREE one. -/
theorem test_place_ahead : ((after (.place 4 once.body) run).entry 0).map Entry.progress = some (.pending 110 (.number 1)) := by
  decide

/-- R31, R32: placed at 235, pulses of 10 every 50 from 110 on: k is 3, occurrences 1 is performed late, the grid
points 160 and 210 are missed, and the next is 260. -/
theorem test_place_late :
    ((after (.place 4 pulses.body) (run.setTimebase { run.timebase with count := 235 })).entry 0).map Entry.progress =
      some (.pending 260 (.number 2)) := by decide

theorem test_entry_query : newest (after (.entryQuery 4 [2]) run) = some (0x99, 4, .none) := by decide

/-- R37, Table 11-7: one entry is listed, PENDING with its due time, and there is no continuation. -/
theorem test_entry_list :
    fields (after (.entryList 4 [0]) busy) = some [1, 2, 2, 7, 0, 3, 1, 110, 0, 0, 0, 0] := by decide

/-- R58, R59: CANCEL by tag ends the PENDING entry, which becomes RETIRED for its final notice. -/
theorem test_cancel : ((after (.cancel 4 [1, 7, 0]) busy).entry 2).map Entry.progress = some .retired := by decide

/-- R62: while RUNNING the trailing action of a TRAILING entry is performed. -/
theorem test_timeline_clear :
    ((after (.timelineClear 4 [])
        (trailingAt pulses 120 110 (.number 4) false (run.setLine 3 ⟨.timed, false, false, true⟩))).line 3).timed =
      false := by decide

/-- R41: at 110 the leading action of the pulse is applied, and its trailing due time is 120. -/
theorem test_pulse_leads :
    ((after .internalTick (pendingAt pulses 110 (.number 5)
        (run.setTimebase { run.timebase with count := 109 }))).entry 2).map Entry.progress =
      some (.trailing 120 110 (.number 4) false) := by decide

/-- R83: at 110 while HALTED the occurrence is missed, and the next is due at 160. -/
theorem test_halted_misses :
    ((after .internalTick (haltedBy (pendingAt pulses 110 (.number 5)
        (run.setTimebase { run.timebase with count := 109 })))).entry 2).map Entry.progress =
      some (.pending 160 (.number 4)) := by decide

/-- R48: a rise on channel 1 with stamp 100 serves the WAITING entry at 105. -/
theorem test_trigger :
    ((after (.edgeAccepted 1) (windowOn .watch 100 (waitingAt armed run))).entry 2).map Entry.progress =
      some (.pending 105 (.number 1)) := by decide

/-- R49: a rise with stamp 90 is accepted at 100, and 95 is reached: the TOGGLE is performed at once, and the entry, with
an arm left, is WAITING again. -/
theorem test_late_trigger :
    (let t := after (.edgeAccepted 1) (windowOn .capture 90 (waitingAt armed run))
    ((t.line 3).timed, (t.entry 2).map fun e => (e.progress, e.armsLeft))) =
      (true, some (.waiting, some (.number 1))) := by decide

/-! ### Output Stage and Halt Unit -/

/-- R70: a DIRECT line at level 1 that becomes TIMED keeps its pin at 1. -/
theorem test_line_setup :
    ((after (.lineSetup 4 [5, 1, 0]) (State.reset.setLine 5 ⟨.direct, false, true, false⟩)).drivenLevel 5) = true := by
  decide

/-- R72: the mask names lines 0 and 15; a TIMED line in the mask is answered LINE. -/
theorem test_line_write :
    (after (.lineWrite 4 [0x01, 0x80, 0xFF, 0x80]) State.reset).drivenLevels = 0x8001 ∧
      newest (after (.lineWrite 4 [0x08, 0, 0, 0]) run) = some (0xA1, 4, .line) := by decide

theorem test_lines_read : (fields (after (.linesRead 4 []) State.reset)).map List.length = some 15 := by decide

/-- R79, R67: HALT makes the timeline HALTED, and the TIMED line takes its safe level. -/
theorem test_halt :
    (after (.halt 4 []) (run.setLine 3 ⟨.timed, true, false, false⟩)).drivenLevel 3 = true ∧
      (after (.halt 4 []) run).halt.slot = some ⟨true, false, false⟩ := by decide +kernel

/-- R85: RESUME clears the causes; with the STOP line active and STOP_LINE in the set it is answered STATE. -/
theorem test_resume :
    (after (.resume 4 []) (haltedBy run)).halted = false ∧
      newest (after (.resume 4 []) (run.setHalt { run.halt with causes := Causes.ofStopLine, stopFiltered := false })) =
        some (0xA5, 4, .state) := by decide

/-- R78: active level 1 with the line at 1 adds STOP_LINE. -/
theorem test_stop_setup : (after (.stopSetup 4 [1, 1]) State.reset).halt.causes = ⟨false, true, false⟩ := by decide

/-- R76, R77: the window opens, a return closes it, a level that holds is accepted and halts. -/
theorem test_stop_line :
    (after .stopWindowOpen State.reset).halt.stopWindow = some 0 ∧
      (after .stopGlitch (after .stopWindowOpen State.reset)).halt.stopWindow = none ∧
        (after .stopLevelAccepted (after .stopWindowOpen State.reset)).halt.causes = ⟨false, true, false⟩ := by
  decide

/-! ### Input Channels and Capture Journal -/

/-- R102: filter 1,023 is in range, and filter 1,024 is not. -/
theorem test_channel_setup :
    ((after (.channelSetup 4 [1, 1, 2, 0xFF, 3, 0, 8, 32, 0, 0, 0]) State.reset).channel 1).setup.filter = 1023 ∧
      newest (after (.channelSetup 4 [1, 1, 2, 0, 4, 0, 8, 32, 0, 0, 0]) State.reset) = some (0xA8, 4, .value) := by
  decide

/-- R105: the clear flag empties the glitch count. -/
theorem test_channel_query :
    ((after (.channelQuery 4 [1, 1]) (after (.glitch 1) (windowOn .off 5 State.reset))).channel 1).glitches = 0 := by
  decide

/-- R91: the window takes the count as its stamp, and with filter 0 the edge is accepted at once. -/
theorem test_raw_transition :
    ((after (.rawTransition 1)
        (run.setChannel 1 { run.channel 1 with setup := { ChannelSetup.afterReset with filter := 20 } })).channel 1).window =
      some ⟨100, 0⟩ ∧ ((after (.rawTransition 1) run).channel 1).filtered = true := by decide

/-- R92. -/
theorem test_glitch : ((after (.glitch 1) (windowOn .off 5 State.reset)).channel 1).glitches = 1 := by decide

/-- R104: a new filter abandons the open window, and the line may then return with nothing counted. -/
theorem test_return_after_abandonment :
    (let s := after (.channelSetup 4 [1, 1, 2, 5, 0, 0, 8, 32, 0, 0, 0]) (windowOn .capture 95 run)
    let t := after (.glitch 1) s
    ((s.channel 1).window, (s.channel 1).raw, (t.channel 1).raw, (t.channel 1).glitches)) =
      (none, true, false, 0) := by decide

/-- R111: a selected edge becomes a record with the stamp of its window. -/
theorem test_edge_captured :
    ((after (.edgeAccepted 1) (windowOn .capture 95 run)).channel 1).unreported = [⟨.rise, 95, none, false⟩] := by
  decide

/-- R117: FLUSH of channel 4 flags it and counts its one record. -/
theorem test_flush :
    ((after (.flush 4 [4]) busy).channel 4).flushFlag = true ∧ fields (after (.flush 4 [4]) busy) = some [1, 0, 1, 0] := by
  decide

/-- R116. -/
theorem test_linger_expiry :
    ((after (.lingerExpiry 1) (State.reset.setChannel 1 { State.reset.channel 1 with lingerTimer := some 3 })).channel 1).lingerDue =
      true := by decide

/-! ### Device reset and the base clock -/

theorem test_power_on : (after .powerOn busy).hold = some ⟨.power, 0⟩ ∧ (after .powerOn busy).drivenLevels = 0 := by
  decide

theorem test_reset_pin : (after .resetPin busy).hold = some ⟨.pin, 0⟩ := by decide

/-- R178, R134: after a reset by the pin the first report is START with the cause PIN and the sampled rate. -/
theorem test_reset_end :
    (after (.resetEnd true true true 0) (after .resetPin busy)).link.tx =
      some ⟨.report 0 (.start .pin .baud2000000), 0⟩ := by decide

/-- R3: with divider 24 and phase 23, one period of the base clock makes a tick. -/
theorem test_period_ticks :
    (run.setTimebase { run.timebase with prescale := 23 }).basePeriod.timebase.count = 101 := by decide

/-- R159, log entry 27: a frame taken in a period begins in the next one; its start bit lasts 208 periods. -/
theorem test_start_bit_whole :
    (State.reset.basePeriod.link.tx.map TxFrame.elapsed,
      State.reset.basePeriod.basePeriod.link.tx.map TxFrame.elapsed) = (some 0, some 1) := by decide

/-! ### States and operands that meet the hypotheses of the statements -/

/-- A part with nothing waiting and an empty cache takes any frame at once. -/
theorem test_executes (s : State) (hh : s.hold = none) (hl : s.link = State.reset.link) (f : Frame) : Executes s f := by
  refine ⟨hh, ?_, ?_, ?_, ?_⟩ <;> rw [hl]
  · rfl
  · rfl
  · exact .inl rfl
  · intro a ha
    cases ha

/-- For the statements about requests whose hypothesis is `Executes` alone: any request, on the part right after reset. -/
theorem test_reset_executes (k : RequestKind) (seq : Byte) (body : List Byte) : Executes State.reset (k.frame seq body) :=
  test_executes State.reset rfl rfl _

/-- A part whose request queue holds the frame, with others behind it, takes it as well. -/
theorem test_executes_from_queue :
    Executes (State.reset.setLink { State.reset.link with requests := [⟨1, 7, []⟩, ⟨2, 8, [0]⟩] }) ⟨1, 7, []⟩ := by
  decide

/-- For StepRunsFrontCommand. -/
theorem test_front_command :
    (run.setPending [.internalTick, .admission]).pending = .internalTick :: [.admission] ∧ run.pending = [] := ⟨rfl, rfl⟩

/-- For the statements of what every step upholds: a busy state meets all of their hypotheses. -/
theorem test_busy_state_is_ok :
    (TimebaseOk busy ∧ CountersOk busy ∧ LinkStoresOk busy ∧ ReportsOk busy.reports) ∧
      (JournalOk busy ∧ DueListOk busy ∧ HaltOk busy) ∧
        (LinesOk busy ∧ TriggersOk busy ∧ EntriesOk busy ∧ PlansOk busy ∧ DueOrderOk busy) := by
  refine ⟨?_, ?_, ?_⟩ <;> decide

/-- For the same statements: that state steps, with a command in front and without one. -/
theorem test_busy_state_steps :
    (∃ t, step busy = .next t) ∧ ∃ t, step (busy.setPending [.internalTick]) = .next t :=
  ⟨⟨_, rfl⟩, ⟨_, rfl⟩⟩

/-- For DueListAndHaltKept: HALTED as well. -/
theorem test_halted_busy_state_is_ok :
    DueListOk (haltedBy busy) ∧ HaltOk (haltedBy busy) ∧ (haltedBy busy).halted = true := by decide

/-- For ClaimsAndEntriesKept: an entry WAITING on a watching channel. -/
theorem test_claims_are_ok :
    LinesOk (windowOn .watch 100 (waitingAt armed run)) ∧ TriggersOk (windowOn .watch 100 (waitingAt armed run)) ∧
      EntriesOk (windowOn .watch 100 (waitingAt armed run)) ∧
        (windowOn .watch 100 (waitingAt armed run)).channelHeld 1 = true := by decide

/-- For KindCodesAndHelloFrame and UnfitRequestsRefused: kind 0x05 is no request's. -/
theorem test_kind_five_is_unnamed :
    (∀ k : RequestKind, k.code ≠ 0x05) ∧ (0x05 : Byte) ∉ ([0x01, 0x02, 0x03, 0x08] : List Byte) := by
  refine ⟨fun k => ?_, by decide⟩
  cases k <;> decide

/-- A part whose receiver has come to the given state. -/
def receiving (r : Receiver) : State := State.reset.setLink { State.reset.link with receiver := r }

/-- A part with four frames in the request queue and an answer waiting. -/
def crowded : State :=
  State.reset.setLink
    { State.reset.link with
      requests := [⟨1, 1, []⟩, ⟨1, 2, []⟩, ⟨1, 3, []⟩, ⟨1, 4, []⟩], waiting := some ⟨0x81, 0, .ok, .none⟩ }

/-- For FramesReceived: a wrong CRC; the kinds 0x00 and 0x30, just outside, and 0x01 and 0x2F, just inside; a body of
512; a full queue. -/
theorem test_frames_hypotheses :
    (State.reset.hold = none ∧ State.reset.link.receiver = .hunt ∧ (List.replicate 512 (0 : Byte)).length ≤ 512) ∧
      (crc (checkedBytes 1 0 []) ≠ (0 : Byte) ++ (0 : Byte) ∧ crc (checkedBytes 1 0 []) = (0x5A : Byte) ++ (0x99 : Byte)) ∧
        ((0x00 : Byte).toNat < 1 ∧ 0x2F < (0x30 : Byte).toNat ∧ ¬(0x01 : Byte).toNat < 1 ∧ ¬0x2F < (0x2F : Byte).toNat) ∧
          (State.reset.link.requests.length < 4 ∧ ¬crowded.link.requests.length < 4 ∧ crowded.link.receiver = .hunt) := by
  refine ⟨?_, ?_, ?_, ?_⟩ <;> decide

/-- For ReceiverSteps: each receiver state, and the lengths 1, 2, 514 and 515. -/
theorem test_receiver_hypotheses :
    (∀ r, (receiving r).hold = none ∧ (receiving r).link.receiver = r) ∧
      (2 ≤ (2 : Byte).toNat + 256 * (0 : Byte).toNat ∧ (2 : Byte).toNat + 256 * (2 : Byte).toNat ≤ 514 ∧
        (1 : Byte).toNat + 256 * (0 : Byte).toNat < 2 ∧ 514 < (3 : Byte).toNat + 256 * (2 : Byte).toNat) :=
  ⟨fun _ => ⟨rfl, rfl⟩, by decide⟩

/-- For PlaceBodyExact, and for the statements about PLACE: the plans of this file are in range. -/
theorem test_plans_in_range :
    once.InRange ∧ pulses.InRange ∧ armed.InRange ∧ (⟨0, 3, .clearLine, .afterDelay 0x7FFFFFFF, none, false, false⟩ : Plan).InRange ∧
      ¬(⟨0, 3, .clearLine, .afterDelay 0x80000000, none, false, false⟩ : Plan).InRange := by decide

/-- For UnfitRequestsRefused: a body of 6 and one of 35 do not fit PLACE, one of 7 and one of 34 do. -/
theorem test_unfit_bodies :
    RequestKind.place.allows 6 = false ∧ RequestKind.place.allows 7 = true ∧ RequestKind.place.allows 34 = true ∧
      RequestKind.place.allows 35 = false ∧ RequestKind.hello.allows [(0 : Byte)].length = false ∧
        1 ≤ (0x05 : Byte).toNat ∧ (0x05 : Byte).toNat ≤ 0x2F ∧ Executes State.reset ⟨0x05, 9, []⟩ := by decide

/-- For CachedAnswerSentAgain: a number in the cache, the frame not in the queue and at its head. -/
theorem test_cached_hypotheses :
    LinkStoresOk busy ∧ (⟨0x92, 1, .ok, .tick 0⟩ : Answer) ∈ busy.link.cache ∧ busy.hold = none ∧
      busy.link.restartTaken = false ∧ busy.link.waiting = none ∧ busy.link.requests = [] ∧
        (busy.setLink { busy.link with requests := [⟨1, 1, []⟩] }).link.requests.head? = some ⟨1, 1, []⟩ := by
  decide

/-- For FrameWaitsOrOverruns: an answer waiting, a RESTART executed, another frame in front; a queue with and without a
free place. -/
theorem test_waiting_hypotheses :
    crowded.hold = none ∧ crowded.link.waiting ≠ none ∧ ¬crowded.link.requests.length < 4 ∧
      crowded.link.requests ≠ [] ∧ crowded.link.requests.head? ≠ some ⟨1, 9, []⟩ ∧
        (after (.restart 4 []) State.reset).link.restartTaken = true ∧
          (after (.restart 4 []) State.reset).link.requests.length < 4 := by decide

/-- For QueuedFrameTaken and RestartAnswered: frames in the queue that can be taken, an answer waiting, a RESTART executed,
an empty queue. -/
theorem test_queue_hypotheses :
    (let s := State.reset.setLink { State.reset.link with requests := [⟨1, 7, []⟩, ⟨2, 8, [0]⟩] }
    s.hold = none ∧ s.link.waiting = none ∧ s.link.restartTaken = false ∧ s.link.requests = [⟨1, 7, []⟩, ⟨2, 8, [0]⟩]) ∧
      crowded.link.waiting ≠ none ∧ (after (.restart 4 []) State.reset).link.restartTaken = true ∧
        State.reset.link.requests = [] ∧ (1 ≤ (1 : Byte).toNat ∧ (0x2F : Byte).toNat ≤ 0x2F) := by decide

/-- For FrameRunsOnTx: the START frame of 13 bytes at 115,200 baud, at its beginning and in its last period; bit 3 of its
start byte 0xC3. -/
theorem test_frame_run_hypotheses :
    (let f : TxFrame := ⟨.report 0 (.start .power .baud115200), 0⟩
    State.reset.transmitChoice.link.tx = some f ∧ State.reset.transmitChoice.link.rate.bitPeriod = 208 ∧
      f.item.bytes.length = 13 ∧ 0 + 27039 < 10 * 208 * 13 ∧ 27039 + 1 = 10 * 208 * 13 ∧
        f.item.bytes[0]? = some 0xC3 ∧ (900 : Nat) / 208 = 10 * 0 + 4) ∧ State.reset.link.tx = none := by decide

/-- For CharacterSampled: at 2,000,000 baud, a line that stays high after the start bit is the byte 0xFF with a good stop
bit; a line that stays low is 0x00 with a bad one. -/
theorem test_character_hypotheses :
    (State.reset.setLink { State.reset.link with rate := .baud2000000 }).link.rxSampler = .idle true ∧
      (∀ level : Bool, (List.replicate 114 level).length = 9 * 12 + 12 / 2 ∧
        (List.replicate 114 level).getLast? = some level ∧
          ∀ k : Fin 8, (List.replicate 114 level)[(k.val + 1) * 12 + 12 / 2 - 1]? =
            some ((if level then 0xFF else 0x00 : Byte).getLsbD k.val)) ∧
        (rxRun (List.replicate 120 false)
          (State.reset.setLink { State.reset.link with rate := .baud2000000 })).link.rxSampler = .recover ∧
          (rxRun [false] (State.reset.setLink { State.reset.link with rxSampler := .idle false })).link.rxSampler =
            .idle false := by decide

/-- For TransmitterChoice: SENDING, an answer waiting, a marked report, an unsent one behind 7 sent ones, none at all. -/
theorem test_transmitter_hypotheses :
    (after (.hello 1 []) State.reset).link.tx ≠ none ∧ (crowded.hold = none ∧ crowded.link.tx = none) ∧
      reporting.reports.Offers 2 ⟨2, .batch 1 0 [⟨.rise, 5, none, false⟩], false, false, false⟩ ∧
        (after (.reportsOn 4 []) silent).reports.Offers 0 { sentReport 0 with resend := true } ∧
          ({ ReportQueue.afterReset with reports := List.replicate 7 (sentReport 0) ++ [{ sentReport 7 with sent := false }] } :
            ReportQueue).Offers 7 { sentReport 7 with sent := false } := by
  refine ⟨?_, ?_, ?_, ?_, ?_⟩ <;> decide

/-- For TransmitterChoice: with the window of 8 full, no report is offered. -/
theorem test_nothing_offered : ∀ k r, ¬silent.reports.Offers k r := by
  intro k r h
  exact absurd h.1 (by decide)

/-- For FrameEnds: an answer, a report and a RESTART's answer on the line. -/
theorem test_frame_end_hypotheses :
    (after (.hello 1 []) State.reset).link.tx = some ⟨.answer ⟨0x81, 1, .ok, .hello .baud115200⟩, 0⟩ ∧
      State.reset.transmitChoice.link.tx = some ⟨.report 0 (.start .power .baud115200), 0⟩ ∧
        (after (.restart 4 []) State.reset).link.tx = some ⟨.answer ⟨0x83, 4, .ok, .none⟩, 0⟩ ∧
          (after (.restart 4 []) State.reset).link.restartTaken = true := by decide

/-- For AckAcknowledges, AckStaleOrRefused, ReportsOnRevives and LinkResetReturns: sent numbers, FLOWING and SILENT;
the numbers 1, 8 and 9 before the base. -/
theorem test_ack_hypotheses :
    (ReportsOk reporting.reports ∧ reporting.reports.reports[1]? = some (sentReport 1) ∧ (sentReport 1).sent = true ∧
      reporting.reports.state = .flowing ∧ silent.reports.state = .silent ∧ ReportsOk silent.reports) ∧
      ((∀ f, Executes reporting f) ∧ ∀ f, Executes silent f) ∧
      ((∀ r ∈ reporting.reports.reports, ¬(r.seq = 255 ∧ r.sent = true)) ∧ (0 - 255 : Byte).toNat = 1 ∧
        (0 - 248 : Byte).toNat = 8 ∧ (0 - 247 : Byte).toNat = 9) := by
  refine ⟨?_, ⟨test_executes _ rfl rfl, test_executes _ rfl rfl⟩, ?_⟩ <;> decide

/-- For LinkSetupStores: the timeouts 4, 5, 1,000 and 1,001, the limits 15 and 16. -/
theorem test_link_setup_hypotheses :
    (4 : Byte).toNat + 256 * (0 : Byte).toNat < 5 ∧ 5 ≤ (5 : Byte).toNat + 256 * (0 : Byte).toNat ∧
      (0xE8 : Byte).toNat + 256 * (3 : Byte).toNat ≤ 1000 ∧ 1000 < (0xE9 : Byte).toNat + 256 * (3 : Byte).toNat ∧
        (15 : Byte).toNat ≤ 15 ∧ 15 < (16 : Byte).toNat ∧ (1 : Byte).toNat ≤ 1 ∧ 1 < (2 : Byte).toNat ∧
          Executes State.reset (RequestKind.linkSetup.frame 4 [0xE8, 3, 15, 1]) := by decide

/-- For TimeSetupSets, TimeSetLoads and TimeRunAndStop: STOPPED with no live entry, RUNNING, STOPPED with a live one. -/
theorem test_time_hypotheses :
    State.reset.timebase.state = .stopped ∧ run.timebase.state = .running ∧
      (∀ f, Executes State.reset f ∧ Executes run f ∧ Executes (pendingAt once 110 (.number 1) State.reset) f) ∧
        (¬LiveEntry State.reset) ∧ LiveEntry (pendingAt once 110 (.number 1) State.reset) := by
  refine ⟨rfl, rfl, fun f => ⟨test_executes _ rfl rfl f, test_executes _ rfl rfl f, test_executes _ rfl rfl f⟩, ?_, 2, _,
    rfl, ?_⟩
  · rintro ⟨i, e, he, -⟩
    have free : ∀ i : EntryIx, State.reset.entry i = none := by decide
    simp [free i] at he
  · decide

/-- For TickAdvances: nothing due at the next count; a tick of either source; an edge on CNT, and samples that are none. -/
theorem test_tick_hypotheses :
    (∀ d, busy.ticked.dueOf 2 = some d → reached busy.ticked.timebase.count d = false) ∧ busy.ticked.dueList.head? = some 2 ∧
      (busy.timebase.state = .running ∧ busy.timebase.source = .internal ∧ busy.hold = none) ∧
        (busy.setTimebase { busy.timebase with source := .external }).timebase.state = .running ∧
          (let t := (run.setTimebase { run.timebase with cntRaw := true, cntSample := some false }).timebase
          t.cntRaw = true ∧ t.cntSample = some false) ∧
            ¬(run.timebase.cntRaw = true ∧ run.timebase.cntSample = some false) ∧
              State.reset.timebase.state = .stopped := by
  refine ⟨fun d hd => ?_, rfl, ⟨rfl, rfl, rfl⟩, rfl, ⟨rfl, rfl⟩, by decide, rfl⟩
  have hb : busy.ticked.dueOf 2 = some 110 := by decide
  obtain rfl : d = 110 := Option.some.inj (hd.symm.trans hb)
  decide

/-- For TicksAndTimers: 23 periods before a tick and the 24th; the period before a step of the millisecond clock; running
timers. -/
theorem test_period_hypotheses :
    (run.timebase.prescale + 23 < run.timebase.divider ∧ run.timebase.prescale + 24 = run.timebase.divider ∧
      run.dueList = [] ∧ run.timebase.state = .running ∧ run.timebase.source = .internal) ∧
      State.reset.timebase.state = .stopped ∧
      (run.timebase.msPhase = 0 ∧ 0 + 23999 < 24000 ∧ 0 + 24000 = 24000) ∧
        ((after (.rxCharacter 0xC3 true) run).link.gapTimer = some 3 ∧
          (after (.rxCharacter 0xC3 true) run).link.receiver ≠ .hunt ∧ reporting.reports.timer = some 7 ∧
            run.link.gapTimer = none ∧ run.reports.timer = none ∧ (run.channel 1).lingerTimer = none) := by
  refine ⟨?_, rfl, ?_, ?_⟩ <;> decide

/-- For the statements about PLACE: a TIMED line, a FREE entry, a RUNNING and a HALTED timeline, an OFF and a watching
channel, a DIRECT line; starts ahead, just reached, and 125 behind with k = 3. -/
theorem test_place_hypotheses :
    (DueListOk run ∧ (run.line 3).mode = .timed ∧ (State.reset.line 3).mode = .direct ∧ LowestFree run 0 ∧
      run.halt.causes.any = false ∧ (haltedBy run).halt.causes.any = true ∧ (run.channel 1).setup.mode = .off ∧
        ((windowOn .watch 100 run).channel 1).setup.mode ≠ .off) ∧
      (∀ f, Executes run f ∧ Executes (haltedBy run) f ∧ Executes (windowOn .watch 100 run) f) ∧
      (reached 100 110 = false ∧ reached 110 110 = true ∧ reached 235 110 = true ∧ (235 - 110 : Tick).toNat / 50 + 1 = 3 ∧
        pulses.firstRemaining.less 3 = .number 2 ∧ CatchesUp pulses 235 110 3 3 ∧ CatchesUp once 235 110 1 1 ∧ reached 235 (110 + 10) = true ∧ reached 115 (110 + 10) = false) := by
  refine ⟨?_, fun f => ⟨test_executes _ rfl rfl f, test_executes _ rfl rfl f, test_executes _ rfl rfl f⟩, ?_⟩ <;> decide

/-- For PlaceRefused: a full table; a body that does not fit; one that does and names line 16; a reached start with
REFUSE. -/
theorem test_place_refused_hypotheses :
    (∀ i, ({ run with entries := Vector.replicate 64 (some ⟨once, .retired, none, .empty⟩) } : State).entry i ≠ none) ∧
      (⟨7, 3, .setLine, .atTime 90 .refuse, none, true, true⟩ : Plan).InRange ∧ reached run.timebase.count 90 = true ∧
        placeFits [] = false ∧ placeFits [7, 0, 16, 0, 2, 0, 0x18, 1, 0, 0, 0, 0, 0, 0, 0] = true ∧
          placeFits [7, 0, 3, 0, 2, 0, 0x18, 1, 0, 0, 0, 0, 0, 0] = false ∧
            (∀ p : Plan, p.InRange → ([7, 0, 16, 0, 2, 0, 0x18, 1, 0, 0, 0, 0, 0, 0, 0] : List Byte) ≠ p.body) ∧
              ∀ f, Executes run f := by
  refine ⟨by decide, by decide, by decide, by decide, by decide, by decide, ?_, test_executes _ rfl rfl⟩
  intro p _ h
  have h2 := congrArg (fun l : List Byte => l[2]?) h
  have : (16 : Byte) = BitVec.ofNat 8 p.line.val := by simpa [Plan.body, bytes16, bytes8] using h2
  have none16 : ∀ n : LineIx, (16 : Byte) ≠ BitVec.ofNat 8 n.val := by decide
  exact none16 _ this

/-- For EntriesRead: a FREE entry, one that is not, the indices 63 and 64. -/
theorem test_entries_hypotheses :
    busy.entry 0 = none ∧ (busy.entry 2).isSome = true ∧ (63 : Byte).toNat ≤ 63 ∧ 63 < (64 : Byte).toNat ∧
      Executes busy (RequestKind.entryQuery.frame 4 [2]) ∧ Executes busy (RequestKind.entryList.frame 4 [63]) := by decide

/-- For CancelEndsTheMatched and TimelineClearFrees: index 2 and tag 7 name an entry of `busy`, index 3 none. -/
theorem test_cancel_hypotheses :
    (2 : Byte).toNat < 64 ∧ (busy.entry 2).map (fun e => (e.plan.tag, decide (e.progress ≠ .retired))) = some (7, true) ∧
      ((0 : Byte) ++ (7 : Byte) : BitVec 16) = 7 ∧ busy.entry 3 = none ∧
        Executes busy (RequestKind.cancel.frame 4 [0, 2]) ∧ Executes busy (RequestKind.cancel.frame 4 [1, 7, 0]) ∧
          Executes busy (RequestKind.timelineClear.frame 4 []) ∧
            (63 < (64 : Byte).toNat ∧ (1 : Byte) ≠ 0 ∧ (0 : Byte) ≠ 1 ∧ Executes busy (RequestKind.cancel.frame 4 [0, 64]) ∧
              Executes busy (RequestKind.cancel.frame 4 [1, 7]) ∧ Executes busy (RequestKind.cancel.frame 4 [0, 7, 0])) := by
  decide

/-- A part whose count has just come to 110. -/
def at110 (s : State) : State := s.setTimebase { s.timebase with count := 110 }

/-- For DueActionServed and DueMissedWhileHalted: an entry taken at 110, with occurrences left and without, with arms left
and without, a single action and a pulse. -/
theorem test_due_hypotheses :
    HeadTaken (at110 (pendingAt once 110 (.number 1) run)) 2 [] ⟨once, .pending 110 (.number 1), none, .empty⟩ 110 ∧
      HeadTaken (haltedBy (at110 (pendingAt armed 110 (.number 1) run))) 2 []
        ⟨armed, .pending 110 (.number 1), some (.number 2), .empty⟩ 110 ∧
      HeadTaken (at110 (pendingAt pulses 110 (.number 5) run)) 2 [] ⟨pulses, .pending 110 (.number 5), none, .empty⟩ 110 ∧
        ((Quantity.number 1).less 1 = .number 0 ∧ (Quantity.number 0).positive = false ∧ Quantity.unlimited.positive = true ∧
          (⟨armed, .waiting, some (.number 2), .empty⟩ : Entry).armed = true ∧ pulses.action.width = some 10 ∧
            once.action.width = none ∧ (⟨once, .waiting, none, .empty⟩ : Entry).armed = false) := by
  refine ⟨?_, ?_, ?_, ?_⟩ <;> decide

/-- For TrailingActionServed: a trailing due time taken at 110, with the cancel flag and without. -/
theorem test_pulse_hypotheses :
    (∀ c, HeadTaken (at110 (trailingAt pulses 110 100 (.number 4) c run)) 2 []
      ⟨pulses, .trailing 110 100 (.number 4) c, none, .empty⟩ 110) ∧ pulses.action.trailing = some .clear := by
  refine ⟨?_, ?_⟩ <;> decide

/-- For TriggerOffered: an entry WAITING, RUNNING and HALTED, one PENDING, one TRAILING, none; a start ahead and a start
reached, with k = 1; a fall, which the sense RISE does not match; a STOPPED timebase. -/
theorem test_trigger_hypotheses :
    (let u := waitingAt armed run
    u.entry 2 = some ⟨armed, .waiting, some (.number 2), .empty⟩ ∧ armed.start = .onTrigger 1 .rise 5 2 ∧
      u.timebase.state = .running ∧ u.halt.causes.any = false ∧ (haltedBy u).halt.causes.any = true ∧ 2 ∉ u.dueList ∧
        u.entry 7 = none) ∧
      DueListOk (waitingAt armed run) ∧
        (reached 100 (100 + 5) = false ∧ reached 100 (90 + 5) = true ∧ CatchesUp armed 100 95 1 1 ∧
          armed.firstRemaining.less 1 = .number 0) ∧
          (((pendingAt armed 110 (.number 1) run).entry 2).map Entry.progress = some (.pending 110 (.number 1)) ∧
            ((trailingAt armed 120 110 (.number 1) false run).entry 2).map Entry.progress =
              some (.trailing 120 110 (.number 1) false) ∧ State.reset.timebase.state = .stopped) ∧
            ¬(TriggerSense.rise = .any ∨ (TriggerSense.rise = .rise ∧ Edge.fall = .rise) ∨
              (TriggerSense.rise = .fall ∧ Edge.fall = .fall)) := by
  refine ⟨?_, ?_, ⟨?_, ?_, ?_, ?_⟩, ?_, ?_⟩ <;> decide

/-- For LineSetupApplied and LineWriteSets: a line that a live entry claims, one that none does. -/
theorem test_line_hypotheses :
    LineClaimed (pendingAt once 110 (.number 1) run) 3 ∧ (¬LineClaimed run 3) ∧ (run.line 3).mode = .timed ∧
      ((0 : Byte) ++ (8 : Byte) : Levels).getLsbD 3 = true ∧ (15 : Byte).toNat ≤ 15 ∧ 15 < (16 : Byte).toNat ∧
        (∀ f, Executes run f ∧ Executes (haltedBy run) f ∧ Executes (pendingAt once 110 (.number 1) run) f) := by
  refine ⟨⟨2, _, rfl, by decide, rfl⟩, ?_, rfl, by decide, by decide, by decide,
    fun f => ⟨test_executes _ rfl rfl f, test_executes _ rfl rfl f, test_executes _ rfl rfl f⟩⟩
  rintro ⟨i, e, he, -⟩
  have free : ∀ i : EntryIx, run.entry i = none := by decide
  simp [free i] at he

/-- For the statements about the Halt Unit: REQUEST present, another cause present, none present; the line active and
not. -/
theorem test_halt_hypotheses :
    DueListOk busy ∧ busy.halt.causes.any = false ∧ (haltedBy busy).halt.causes.request = true ∧
      Causes.ofStopLine.any = true ∧ Causes.ofStopLine.request = false ∧ Causes.ofRequest.stopLine = false ∧
        State.reset.halt.stopEnable = true ∧ State.reset.halt.stopFiltered ≠ State.reset.halt.stopActive ∧
          (after .stopWindowOpen State.reset).halt.stopWindow ≠ none ∧ State.reset.halt.stopWindow = none ∧
            DueListOk (haltedBy busy) ∧ Executes busy (RequestKind.halt.frame 4 []) ∧
              Executes (haltedBy busy) (RequestKind.resume.frame 4 []) ∧
                Executes (haltedBy busy) (RequestKind.stopSetup.frame 4 [1, 1]) := by
  decide

/-- For ChannelSetupAndQuery and FlushAndLinger: setups at the ends of their ranges, a body that
lays none out. -/
theorem test_channel_setup_hypotheses :
    (⟨.capture, .both, 1023, true, 48, 256, 60000⟩ : ChannelSetup).InRange ∧
      (⟨.off, .rise, 0, false, 1, 1, 0⟩ : ChannelSetup).InRange ∧
        ¬(⟨.off, .rise, 1024, false, 1, 1, 0⟩ : ChannelSetup).InRange ∧
          State.reset.heldCount 1 ≤ 1 ∧ (busy.heldCount 4 = 1) ∧
            (waitingAt armed run).channelHeld 1 = true ∧ 
              Executes busy (RequestKind.channelSetup.frame 4 [4, 0, 0, 0, 0, 0, 1, 1, 0, 0, 0]) ∧
              Executes busy (RequestKind.channelQuery.frame 4 [15, 1]) ∧ Executes busy (RequestKind.flush.frame 4 [0xFF]) := by
  decide

/-- For ChannelSetupAndQuery: channel 16 has no setup, so this body of 11 bytes lays none out. -/
theorem test_no_sixteenth_channel :
    ∀ (c : ChanIx) (new : ChannelSetup), new.InRange → ([16, 0, 0, 0, 0, 0, 1, 1, 0, 0, 0] : List Byte) ≠ bytes8 c.val ++ new.bytes := by
  intro c new _ h
  have : (16 : Byte) = BitVec.ofNat 8 c.val := by
    have := congrArg List.head? h
    simpa [bytes8] using this
  have none16 : ∀ c : ChanIx, (16 : Byte) ≠ BitVec.ofNat 8 c.val := by decide
  exact none16 c this

/-- For FilterWindowActs and EdgeDistributed: a closed and an open window, filters 0 and not; the modes, a selected and
an unselected edge, a channel below and at its quota. -/
theorem test_edge_hypotheses :
    (run.channel 1).window = none ∧ (run.channel 1).setup.filter = 0 ∧
      ((windowOn .capture 95 run).channel 1).window = some ⟨95, 0⟩ ∧ ((windowOn .capture 95 run).channel 1).setup.sense = .both ∧
        (windowOn .capture 95 run).heldCount 1 < ((windowOn .capture 95 run).channel 1).setup.quota ∧
          ((windowOn .watch 95 run).channel 1).setup.mode = .watch ∧ (∀ i : EntryIx, run.entry i = none) := by
  refine ⟨?_, ?_, ?_, ?_, ?_, ?_, ?_⟩ <;> decide

/-- For FiltersTimed: a STOP window in its first period and in the last before acceptance; a line away from its level in a
window of 20 us, at its beginning and its end; levels that have returned. -/
theorem test_filter_hypotheses :
    (State.reset.hold = none ∧ State.reset.halt.stopRaw = State.reset.halt.stopFiltered ∧ State.reset.halt.stopWindow = none) ∧
      (let s := after .stopWindowOpen State.reset
      s.halt.stopRaw ≠ s.halt.stopFiltered ∧ s.halt.stopWindow = some 0 ∧ 0 + 239 < 240 ∧ 0 + 240 = 240) ∧
        (let s := run.setChannel 1 { run.channel 1 with setup := { ChannelSetup.afterReset with filter := 20 } }
        let t := after (.rawTransition 1) s
        (t.channel 1).raw ≠ (t.channel 1).filtered ∧ (t.channel 1).window = some ⟨100, 0⟩ ∧
          0 + 479 < 24 * (t.channel 1).setup.filter ∧ 0 + 480 = 24 * (t.channel 1).setup.filter ∧
            (s.channel 1).raw = (s.channel 1).filtered ∧ (s.channel 1).window = none) := by
  refine ⟨?_, ?_, ?_⟩ <;> decide

/-- For FlushAndLinger: the selectors 15, 16 and 0xFF; a running linger timer. -/
theorem test_flush_hypotheses :
    (15 : Byte).toNat ≤ 15 ∧ 15 < (16 : Byte).toNat ∧ (16 : Byte) ≠ 0xFF ∧
      ((State.reset.setChannel 1 { State.reset.channel 1 with lingerTimer := some 3 }).channel 1).lingerTimer ≠ none := by
  decide

/-- Two TRAILING entries, 0 and 1, ahead of the PENDING entry 2 on the list. -/
def twoTrailing : State :=
  let s := run.setEntry 0 (some ⟨pulses, .trailing 110 100 (.number 4) false, none, .empty⟩)
  let s := s.setEntry 1 (some ⟨pulses, .trailing 112 100 (.number 4) false, none, .empty⟩)
  (pendingAt pulses 150 (.number 3) s).setDueList [0, 1, 2]

/-- At the entry into HALTED two TRAILING entries go on to 150, where entry 2 waits: they are inserted behind it, in list
order (R24, R82). -/
theorem test_halt_reorders :
    (DueListOk twoTrailing ∧ twoTrailing.dueList.Pairwise (fun i j => twoTrailing.dueDistance i ≤ twoTrailing.dueDistance j)) ∧
      (after (.halt 4 []) twoTrailing).dueList = [2, 0, 1] ∧ (after (.halt 4 []) twoTrailing).dueOf 1 = some 150 := by
  refine ⟨?_, ?_, ?_⟩ <;> decide

/-- For ReportTimerExpires: below and at the limit, with halt-on-silence, RUNNING and HALTED. -/
theorem test_timer_hypotheses :
    reporting.reports.timer ≠ none ∧ DueListOk reporting ∧ reporting.link.waiting = none ∧
      reporting.reports.retries < reporting.reports.retryLimit ∧
        (let t := reporting.setReports { reporting.reports with retries := 4, haltOnSilence := true }
        t.reports.retryLimit ≤ t.reports.retries ∧ t.halt.causes.any = false ∧ (haltedBy t).halt.causes.silence = false) := by
  decide

/-- A part with a pending entry notice, a level notice and a flushed batch. -/
def offering : State :=
  let s := State.reset.setEntry 5 (some ⟨once, .retired, none, .pending EntryNotice.blank⟩)
  let s := s.setChannel 3 { s.channel 3 with level := some ⟨1, 9, 9⟩ }
  s.setChannel 4 { s.channel 4 with flushFlag := true }

/-- In SILENT an entry notice is admitted, and a halt notice before it (R131, R132). -/
theorem test_silent_admits :
    (offering.setReports { offering.reports with state := .silent }).choose = some (.entry 5) ∧
      (after (.halt 4 []) (offering.setReports { offering.reports with state := .silent })).choose = some .halt := by decide

/-- For AdmissionServes: nothing ready; each kind of item first in turn. -/
theorem test_admission_hypotheses :
    (NoticeServed (after (.halt 4 []) State.reset) ∧ (after (.halt 4 []) State.reset).halt.slot = some Causes.ofRequest) ∧
      (offering.halt.slot = none ∧ offering.reports.lastClass = .batch ∧ offering.hold = none ∧
        offering.reports.reports.length < 32 ∧ FirstAfter offering.reports.lastBatch 4 (BatchReady offering)) := by
  refine ⟨⟨⟨.inl (by decide), .inr (by decide)⟩, by decide⟩, ?_⟩
  decide

/-- For AdmissionServes: the entry slot of `offering` is the first pending one, and its level slot the first level
slot. -/
theorem test_admission_slots :
    NoticeServed offering ∧ FirstAfter offering.reports.lastEntry 5 (SlotPending offering) ∧
      FirstAfter offering.reports.lastLevel 3 (fun c => (offering.channel c).level ≠ none) := by
  have h5 : SlotPending offering 5 := ⟨_, rfl, EntryNotice.blank, rfl⟩
  refine ⟨⟨.inr (.inl ⟨5, h5⟩), .inr rfl⟩, ⟨h5, ?_⟩, by decide⟩
  rintro j ⟨e, he, -⟩
  have : j = 5 := by
    have key : ∀ j : EntryIx, (offering.entry j).isSome = true → j = 5 := by decide
    exact key j (by rw [he]; rfl)
  subst this
  exact le_refl _

/-- For DeviceResets: a reset that holds for each cause, and the last two periods of a RESTART's. -/
theorem test_reset_hypotheses :
    (after .powerOn State.reset).hold = some ⟨.power, 0⟩ ∧ (after .resetPin State.reset).hold = some ⟨.pin, 0⟩ ∧
      (after .txFrameEnd (after (.restart 4 []) State.reset)).hold = some ⟨.restart, 0⟩ ∧ State.reset.pending = [] ∧
        ((⟨.restart, 23998⟩ : ResetHold).elapsed + 1 < 24000) ∧ ((⟨.restart, 23999⟩ : ResetHold).elapsed + 1 = 24000) := by
  decide

end Sys2Proof.Tests
end

section
/-! PROOF. Timebase and counters (chapter 1, "Counts"): the divider, the prescale phase and the saturating counters stay in
their ranges. The condition is cut into one predicate for each item that carries a part of it, each operation of the model
keeps it, and so does every step. -/

namespace Sys2Proof.Machine

/-! ### The condition, item by item -/

/-- The Timebase's part of the condition: divider and prescale phase in range (R2, R3). -/
def Timebase.InRange (t : Timebase) : Prop :=
  1 ≤ t.divider ∧ t.divider ≤ 65535 ∧ t.prescale < t.divider ∧ (t.state = .stopped → t.prescale = 0)

/-- The four link error counters stop at their limit (R157). -/
def Link.CountsBounded (l : Link) : Prop :=
  l.framing ≤ Config.counterLimit ∧ l.gapAborts ≤ Config.counterLimit ∧ l.crcErrors ≤ Config.counterLimit ∧
    l.overruns ≤ Config.counterLimit

/-- A channel's counts stop at their limit (R92, R98, R112). -/
def Channel.CountsBounded (ch : Channel) : Prop :=
  ch.glitches ≤ Config.counterLimit ∧ ch.lost ≤ Config.counterLimit ∧
    ∀ n ∈ ch.level, n.changes ≤ Config.counterLimit

/-- The counts of the notice in a slot stop at their limit (R53). -/
def EntrySlot.CountsBounded (slot : EntrySlot) : Prop := ∀ n ∈ slot.notice, n.countsOk = true

/-- The counts of a record's notice, if there is a record (R53). -/
def EntryCountsBounded (e : Option Entry) : Prop := ∀ r ∈ e, r.slot.CountsBounded

/-- Every item of the state keeps its range. -/
structure State.InBounds (s : State) : Prop where
  timebase : s.timebase.InRange
  link : s.link.CountsBounded
  channel : ∀ c, (s.channel c).CountsBounded
  entry : ∀ i, EntryCountsBounded (s.entry i)

/-- The condition on the items is the one the statement gives. -/
theorem State.inBounds_iff (s : State) : s.InBounds ↔ TimebaseOk s ∧ CountersOk s := by
  constructor
  · rintro ⟨ht, ⟨hf, hg, hc, ho⟩, hch, he⟩
    exact ⟨ht, hf, hg, hc, ho, hch, he⟩
  · rintro ⟨ht, hf, hg, hc, ho, hch, he⟩
    exact ⟨ht, ⟨hf, hg, hc, ho⟩, hch, he⟩

theorem satAdd_le (n k : Nat) : satAdd n k ≤ Config.counterLimit := min_le_right _ _

/-! ### One rule for each write of the state -/

/-- The condition looks at the timebase, the link, the channels and the entries alone. -/
theorem State.InBounds.congr {s t : State} (h : s.InBounds) (ht : t.timebase = s.timebase) (hl : t.link = s.link)
    (hc : t.channels = s.channels) (he : t.entries = s.entries) : t.InBounds := by
  obtain ⟨h1, h2, h3, h4⟩ := h
  refine ⟨ht ▸ h1, hl ▸ h2, ?_, ?_⟩
  · unfold State.channel at h3 ⊢
    rwa [hc]
  · unfold State.entry at h4 ⊢
    rwa [he]

section Writes

variable {s : State} (h : s.InBounds)
include h

theorem State.InBounds.setTimebase {t : Timebase} (ht : t.InRange) : (s.setTimebase t).InBounds :=
  ⟨ht, h.link, h.channel, h.entry⟩

theorem State.InBounds.setLink {l : Link} (hl : l.CountsBounded) : (s.setLink l).InBounds :=
  ⟨h.timebase, hl, h.channel, h.entry⟩

theorem State.InBounds.setHalt (u : HaltUnit) : (s.setHalt u).InBounds := h.congr rfl rfl rfl rfl

theorem State.InBounds.setLines (l : Vector OutLine 16) : ({ s with lines := l } : State).InBounds :=
  h.congr rfl rfl rfl rfl

theorem State.InBounds.setReports (q : ReportQueue) : (s.setReports q).InBounds := h.congr rfl rfl rfl rfl

theorem State.InBounds.setChannel (c : ChanIx) {ch : Channel} (hch : ch.CountsBounded) :
    (s.setChannel c ch).InBounds := by
  refine ⟨h.timebase, h.link, fun d => ?_, h.entry⟩
  rw [State.channel_setChannel]
  split
  · exact hch
  · exact h.channel d

theorem State.InBounds.setChannels {cs : Vector Channel 16} (hc : ∀ c : ChanIx, cs[c.val].CountsBounded) :
    ({ s with channels := cs } : State).InBounds := ⟨h.timebase, h.link, hc, h.entry⟩

theorem State.InBounds.setEntry (i : EntryIx) {e : Option Entry} (he : EntryCountsBounded e) :
    (s.setEntry i e).InBounds := by
  refine ⟨h.timebase, h.link, h.channel, fun j => ?_⟩
  rw [State.entry_setEntry]
  split
  · exact he
  · exact h.entry j

theorem State.InBounds.putEntry (i : EntryIx) {e : Option Entry} (he : EntryCountsBounded e) :
    (s.putEntry i e).InBounds :=
  (h.setEntry i he).congr (by simp) (by simp) (by simp) (by simp)

/-- The record at a place, when the condition holds. -/
theorem State.InBounds.slot {i : EntryIx} {e : Entry} (he : s.entry i = some e) : e.slot.CountsBounded :=
  h.entry i e he

end Writes

/-- A fold of an operation that keeps the condition keeps it. -/
theorem State.InBounds.foldl {α : Type} {f : State → α → State} (hf : ∀ u a, u.InBounds → (f u a).InBounds)
    (l : List α) {s : State} (h : s.InBounds) : (l.foldl f s).InBounds := by
  induction l generalizing s with
  | nil => exact h
  | cons a l ih => exact ih (hf s a h)

/-! ### Entry notices (section 3.4) -/

theorem EntryNotice.countsOk_iff (n : EntryNotice) :
    n.countsOk = true ↔ n.firedCount ≤ Config.counterLimit ∧ n.missedCount ≤ Config.counterLimit ∧
      n.overrunCount ≤ Config.counterLimit := by
  simp [EntryNotice.countsOk, and_assoc]

/-- An event raises one count, which stops at the limit (R53). -/
theorem EntryNotice.countsOk_merge {n : EntryNotice} (h : n.countsOk = true) (ev : EntryEvent) (now : Tick)
    (remaining : Option Quantity) : (n.merge ev now remaining).countsOk = true := by
  rw [EntryNotice.countsOk_iff] at h ⊢
  obtain ⟨hf, hm, ho⟩ := h
  cases ev with
  | fired late => exact ⟨satAdd_le _ _, hm, ho⟩
  | missed k => exact ⟨hf, satAdd_le _ _, ho⟩
  | overrun => exact ⟨hf, hm, satAdd_le _ _⟩

theorem entryCountsBounded_some {e : Entry} (h : e.slot.CountsBounded) : EntryCountsBounded (some e) := by
  rintro r ⟨⟩
  exact h

theorem entryCountsBounded_none : EntryCountsBounded none := by
  rintro r ⟨⟩

theorem EntrySlot.countsBounded_empty : EntrySlot.empty.CountsBounded := by
  rintro n ⟨⟩

theorem EntrySlot.countsBounded_of_notice {slot : EntrySlot} {n : EntryNotice} (hn : slot.notice = some n)
    (h : n.countsOk = true) : slot.CountsBounded := by
  intro m hm
  obtain rfl : n = m := Option.some_injective _ (hn.symm.trans hm)
  exact h

/-- The notice that an event finds in a slot: the one gathered there, or a blank one. -/
theorem EntrySlot.CountsBounded.gathered {slot : EntrySlot} (h : slot.CountsBounded) :
    (slot.notice.getD .blank).countsOk = true := by
  cases hn : slot.notice with
  | none => rfl
  | some n => exact h n hn

section Records

variable {e : Entry} (h : e.slot.CountsBounded)
include h

theorem Entry.countsBounded_account (ev : EntryEvent) (now : Tick) (remaining : Option Quantity) :
    (e.account ev now remaining).slot.CountsBounded := by
  have merged := EntryNotice.countsOk_merge h.gathered ev now remaining
  unfold Entry.account EntrySlot.merge
  dsimp only
  split
  · exact EntrySlot.countsBounded_of_notice rfl merged
  · split
    · exact EntrySlot.countsBounded_of_notice rfl merged
    · exact h

theorem Entry.countsBounded_accountMisses (k : Nat) (now : Tick) (remaining : Option Quantity) :
    (e.accountMisses k now remaining).slot.CountsBounded := by
  unfold Entry.accountMisses
  split
  · exact h
  · exact Entry.countsBounded_account h _ _ _

/-- The final notice keeps the counts it has gathered (R54). -/
theorem Entry.countsBounded_endLife (outcome : FinalOutcome) (now : Tick) (remaining : Option Quantity) :
    EntryCountsBounded (e.endLife outcome now remaining) := by
  unfold Entry.endLife
  split
  · exact entryCountsBounded_some (EntrySlot.countsBounded_of_notice rfl h.gathered)
  · exact entryCountsBounded_none

theorem Entry.countsBounded_endSeries (outcome : FinalOutcome) (now : Tick) :
    EntryCountsBounded (e.endSeries outcome now) := by
  unfold Entry.endSeries
  split
  · exact entryCountsBounded_some h
  · exact Entry.countsBounded_endLife h _ _ _

theorem Entry.countsBounded_goOn (remaining : Quantity) (due : Option Tick) (outcome : FinalOutcome) (now : Tick) :
    EntryCountsBounded (e.goOn remaining due outcome now) := by
  unfold Entry.goOn
  split
  · exact entryCountsBounded_some h
  · exact Entry.countsBounded_endSeries h _ _

theorem Entry.countsBounded_afterTrailing (lead : Tick) (remaining : Quantity) (cancelled : Bool) (now : Tick) :
    EntryCountsBounded (e.afterTrailing lead remaining cancelled now) := by
  unfold Entry.afterTrailing
  split
  · exact Entry.countsBounded_endLife h _ _ _
  · exact Entry.countsBounded_goOn h _ _ _ _

end Records

/-! ### The Timeline (chapters 2, 3 and 5) -/

section Timeline

variable {s : State} (h : s.InBounds)
include h

theorem State.InBounds.act (n : LineIx) (a : LevelAction) : (s.act n a).InBounds := h.setLines _

theorem State.InBounds.actTrailing (p : Plan) : (s.actTrailing p).InBounds := by
  unfold State.actTrailing
  split
  · exact h.act _ _
  · exact h

theorem State.InBounds.missDue (i : EntryIx) {e : Entry} (he : e.slot.CountsBounded) (due : Tick)
    (remaining : Quantity) : (s.missDue i e due remaining).InBounds :=
  h.putEntry i (Entry.countsBounded_goOn (Entry.countsBounded_account he _ _ _) _ _ _ _)

theorem State.InBounds.fireDue (i : EntryIx) {e : Entry} (he : e.slot.CountsBounded) (due : Tick)
    (remaining : Quantity) : (s.fireDue i e due remaining).InBounds := by
  unfold State.fireDue
  dsimp only
  split
  · exact (h.act _ _).putEntry i (Entry.countsBounded_goOn (Entry.countsBounded_account he _ _ _) _ _ _ _)
  · exact (h.act _ _).putEntry i (entryCountsBounded_some (Entry.countsBounded_account he _ _ _))

theorem State.InBounds.serveEntry (i : EntryIx) : (s.serveEntry i).InBounds := by
  unfold State.serveEntry
  split
  · next e he =>
    have hs := h.slot he
    split
    · split
      · exact h.missDue i hs _ _
      · exact h.fireDue i hs _ _
    · refine State.InBounds.putEntry ?_ i (Entry.countsBounded_afterTrailing hs _ _ _ _)
      split
      · exact h
      · exact h.actTrailing _
    · exact h
  · exact h

theorem State.InBounds.unschedule (i : EntryIx) : (s.unschedule i).InBounds := h.congr rfl rfl rfl rfl

theorem State.InBounds.serveDue (n : Nat) : (State.serveDue n s).InBounds := by
  induction n generalizing s with
  | zero => exact h
  | succ n ih =>
    unfold State.serveDue
    split
    · exact h
    · split
      · exact ih ((h.unschedule _).serveEntry _)
      · exact h

theorem State.InBounds.advance : s.advance.InBounds := by
  refine State.InBounds.serveDue ?_ _
  exact h.setTimebase h.timebase

theorem State.InBounds.beginLate (i : EntryIx) {e : Entry} (he : e.slot.CountsBounded) (start : Tick) (late : Bool) :
    (s.beginLate i e start late).InBounds := by
  have record : ∀ k a b c, ((e.account (.fired late) s.now a).accountMisses k b c).slot.CountsBounded :=
    fun k a b c => Entry.countsBounded_accountMisses (Entry.countsBounded_account he _ _ _) k b c
  unfold State.beginLate
  dsimp only
  split
  · exact (h.act _ _).putEntry i (Entry.countsBounded_goOn (record _ _ _ _) _ _ _ _)
  · split
    · exact ((h.act _ _).actTrailing _).putEntry i (Entry.countsBounded_goOn (record _ _ _ _) _ _ _ _)
    · exact (h.act _ _).putEntry i (entryCountsBounded_some (record _ _ _ _))

theorem State.InBounds.beginMissed (i : EntryIx) {e : Entry} (he : e.slot.CountsBounded) (start : Tick) :
    (s.beginMissed i e start).InBounds :=
  h.putEntry i (Entry.countsBounded_goOn (Entry.countsBounded_accountMisses he _ _ _) _ _ _ _)

theorem State.InBounds.countTrailingDone (i : EntryIx) : (s.countTrailingDone i).InBounds := by
  unfold State.countTrailingDone
  split
  · next e he =>
    split
    · exact h.putEntry i (Entry.countsBounded_afterTrailing (h.slot he) _ _ _ _)
    · exact h
  · exact h

theorem State.InBounds.enterHalted : s.enterHalted.InBounds :=
  State.InBounds.foldl (fun _ i hu => hu.countTrailingDone i) s.dueList (h.setLines _)

theorem State.InBounds.addCause (c : Causes) : (s.addCause c).InBounds := by
  rcases s.addCause_cases c with ⟨-, e⟩ | ⟨-, -, e⟩ | ⟨-, -, e⟩ <;> rw [e]
  · exact h
  · exact h.setHalt _
  · exact (h.setHalt _).enterHalted

/-- An entry cancelled keeps the counts its notice has gathered (R59, R60). -/
theorem State.InBounds.cancelEntry (i : EntryIx) : (s.cancelEntry i).InBounds := by
  unfold State.cancelEntry
  split
  · exact h
  · next e he =>
    have hs := h.slot he
    split
    · exact h.putEntry i (Entry.countsBounded_endLife hs _ _ _)
    · exact h.putEntry i (Entry.countsBounded_endLife hs _ _ _)
    · exact h.setEntry i (entryCountsBounded_some hs)
    · exact h

theorem State.InBounds.clearTrailing (i : EntryIx) : (s.clearTrailing i).InBounds := by
  unfold State.clearTrailing
  split
  · split
    · exact h.actTrailing _
    · exact h
  · exact h

theorem State.InBounds.serveTrigger (i : EntryIx) {e : Entry} (he : e.slot.CountsBounded) (delay stamp : Tick) :
    (s.serveTrigger i e delay stamp).InBounds := by
  unfold State.serveTrigger
  dsimp only
  split
  · exact h.beginLate i (e := e.useArm) he _ _
  · exact h.putEntry i (entryCountsBounded_some he)

theorem State.InBounds.missTrigger (i : EntryIx) {e : Entry} (he : e.slot.CountsBounded) :
    (s.missTrigger i e).InBounds := by
  have missed := Entry.countsBounded_account (e := e.useArm) he (.missed 1) s.now none
  unfold State.missTrigger
  dsimp only
  split
  · exact h.setEntry i (entryCountsBounded_some missed)
  · exact h.putEntry i (Entry.countsBounded_endLife missed _ _ _)

theorem State.InBounds.offerEdge (c : ChanIx) (edge : Edge) (stamp : Tick) (i : EntryIx) :
    (State.offerEdge c edge stamp s i).InBounds := by
  unfold State.offerEdge
  split
  · exact h
  · next e he =>
    have hs := h.slot he
    split
    · split
      · split
        · split
          · exact h.missTrigger i hs
          · exact h.serveTrigger i hs _ _
        · exact h.setEntry i (entryCountsBounded_some (Entry.countsBounded_account hs _ _ _))
        · exact h.setEntry i (entryCountsBounded_some (Entry.countsBounded_account hs _ _ _))
        · exact h
      · exact h
    · exact h

theorem State.InBounds.offerTrigger (c : ChanIx) (edge : Edge) (stamp : Tick) :
    (s.offerTrigger c edge stamp).InBounds := by
  unfold State.offerTrigger
  split
  · exact State.InBounds.foldl (fun _ i hu => hu.offerEdge c edge stamp i) _ h
  · exact h

end Timeline

end Sys2Proof.Machine
end

section
/-! PROOF. The ranges of the timebase and the counters, continued: channels, halt, link, device reset, admission, the
requests, the periods of the base clock, and then every command and every step. -/

namespace Sys2Proof.Machine

/-! ### Input channels and the journal (chapters 6 and 7) -/

/-- The first change of a level notice counts 1, every further one adds to the count up to the limit (R98). -/
theorem Channel.CountsBounded.watchEdge {ch : Channel} (h : ch.CountsBounded) (stamp : Tick) :
    (ch.watchEdge stamp).CountsBounded := by
  obtain ⟨hg, hl, -⟩ := h
  refine ⟨hg, hl, fun n hn => ?_⟩
  unfold Channel.watchEdge at hn
  dsimp only at hn
  split at hn
  · obtain rfl := Option.some_injective _ hn
    exact (by decide : 1 ≤ Config.counterLimit)
  · obtain rfl := Option.some_injective _ hn
    exact satAdd_le _ _

section Channels

variable {s : State} (h : s.InBounds)
include h

/-- A channel whose counts are those of the channel before. -/
theorem State.InBounds.sameCounts (c : ChanIx) {ch : Channel} (hg : ch.glitches = (s.channel c).glitches)
    (hl : ch.lost = (s.channel c).lost) (hn : ch.level = (s.channel c).level) : (s.setChannel c ch).InBounds := by
  refine h.setChannel c ?_
  unfold Channel.CountsBounded
  rw [hg, hl, hn]
  exact h.channel c

/-- A record is taken or the loss counted, up to the limit (R111, R112). -/
theorem State.InBounds.journal (c : ChanIx) (r : Record) : (s.journal c r).InBounds := by
  unfold State.journal
  split
  · exact h.sameCounts c rfl rfl rfl
  · obtain ⟨hg, -, hn⟩ := h.channel c
    exact h.setChannel c ⟨hg, satAdd_le _ _, hn⟩

theorem State.InBounds.captureEdge (c : ChanIx) (edge : Edge) (stamp : Tick) : (s.captureEdge c edge stamp).InBounds := by
  refine State.InBounds.journal ?_ c _
  exact h.sameCounts c rfl rfl rfl

theorem State.InBounds.distribute (c : ChanIx) (edge : Edge) (stamp : Tick) : (s.distribute c edge stamp).InBounds := by
  unfold State.distribute
  split
  · exact h
  · split
    · refine State.InBounds.offerTrigger ?_ c edge stamp
      split
      · exact h.captureEdge c edge stamp
      · exact h
    · exact h
  · exact (h.setChannel c ((h.channel c).watchEdge stamp)).offerTrigger c edge stamp

theorem State.InBounds.acceptEdge (c : ChanIx) (stamp : Tick) : (s.acceptEdge c stamp).InBounds := by
  refine State.InBounds.distribute ?_ c _ stamp
  exact h.sameCounts c rfl rfl rfl

theorem State.InBounds.rawTransition (c : ChanIx) : (s.rawTransition c).InBounds := by
  have opened := h.sameCounts c (ch := { s.channel c with raw := !(s.channel c).filtered, window := some ⟨s.now, 0⟩ })
    rfl rfl rfl
  unfold State.rawTransition
  dsimp only
  split
  · exact opened.acceptEdge c _
  · exact opened

/-- A glitch is counted, up to the limit (R92). -/
theorem State.InBounds.glitch (c : ChanIx) : (s.setChannel c (s.channel c).glitch).InBounds := by
  obtain ⟨-, hl, hn⟩ := h.channel c
  exact h.setChannel c ⟨satAdd_le _ _, hl, hn⟩

theorem State.InBounds.lingerExpires (c : ChanIx) : (s.lingerExpires c).InBounds := h.sameCounts c rfl rfl rfl

/-- The lost counts of discarded batches are added up to the limit (R123). -/
theorem State.InBounds.returnBatches (reports : List Report) : (s.returnBatches reports).InBounds := by
  refine h.setChannels fun c => ?_
  obtain ⟨hg, -, hn⟩ := h.channel c
  rw [Vector.getElem_ofFn]
  exact ⟨hg, satAdd_le _ _, hn⟩

theorem State.InBounds.restartReferences : s.restartReferences.InBounds := by
  refine h.setChannels fun c => ?_
  rw [Vector.getElem_map]
  exact h.channel c

end Channels

/-! ### Halt and STOP (chapter 5) -/

section Halting

variable {s : State} (h : s.InBounds)
include h

theorem State.InBounds.acceptStop : s.acceptStop.InBounds := by
  unfold State.acceptStop
  dsimp only
  split
  · refine State.InBounds.setHalt ?_ _
    split
    · exact (h.setHalt _).addCause _
    · exact h.setHalt _
  · exact h.setHalt _

theorem State.InBounds.reportTimerExpires : s.reportTimerExpires.InBounds := by
  unfold State.reportTimerExpires
  dsimp only
  split
  · exact h.setReports _
  · split
    · exact (h.setReports _).addCause _
    · exact h.setReports _

end Halting

/-! ### The link (chapters 9 and 10) -/

section Link

variable {s : State} (h : s.InBounds)
include h

theorem State.InBounds.transmitChoice : s.transmitChoice.InBounds := by
  rcases s.transmitChoice_cases with e | ⟨a, -, -, -, e⟩ | ⟨k, r, -, -, -, -, -, e⟩ <;> rw [e]
  · exact h
  · exact h.setLink h.link
  · exact (h.setReports _).setLink h.link

theorem State.InBounds.offerFrame (f : Frame) : (s.offerFrame f).InBounds := by
  obtain ⟨hf, hg, hc, -⟩ := h.link
  unfold State.offerFrame
  split
  · exact h.setLink h.link
  · exact h.setLink ⟨hf, hg, hc, satAdd_le _ _⟩

theorem State.InBounds.framingError : s.framingError.InBounds := by
  obtain ⟨-, hg, hc, ho⟩ := h.link
  exact h.setLink ⟨satAdd_le _ _, hg, hc, ho⟩

theorem State.InBounds.gapAbort : s.gapAbort.InBounds := by
  obtain ⟨hf, -, hc, ho⟩ := h.link
  exact h.setLink ⟨hf, satAdd_le _ _, hc, ho⟩

theorem State.InBounds.rejectFraming : s.rejectFraming.InBounds := (h.setLink (l := s.link.toHunt) h.link).framingError

theorem State.InBounds.completeFrame (low high : Byte) (content : List Byte) (crcLow crcHigh : Byte) :
    (s.completeFrame low high content crcLow crcHigh).InBounds := by
  have hunting : (s.setLink s.link.toHunt).InBounds := h.setLink h.link
  unfold State.completeFrame
  dsimp only
  split
  · split
    · split
      · exact hunting.offerFrame _
      · exact hunting.framingError
    · exact hunting.framingError
  · obtain ⟨hf, hg, -, ho⟩ := hunting.link
    exact hunting.setLink ⟨hf, hg, satAdd_le _ _, ho⟩

/-- A character moves the receiver on, or ends a frame: good, rejected, or with a bad CRC (Table 9-2). -/
theorem State.InBounds.receive (value : Byte) (stopBit : Bool) : (s.receive value stopBit).InBounds := by
  have moved : ∀ r, (s.setLink (s.link.receive r)).InBounds := fun r => h.setLink h.link
  unfold State.receive
  split
  · split
    · exact moved _
    · exact h
  · split
    · split
      · exact moved _
      · split
        · exact moved _
        · exact h.rejectFraming
    · exact h.rejectFraming
  · split
    · split <;> exact moved _
    · exact h.rejectFraming
  · split
    · split
      · exact moved _
      · exact h.completeFrame _ _ _ _ _
    · exact h.rejectFraming

end Link

/-! ### Device reset (sections 10.5, 10.6) -/

theorem Timebase.inRange_afterReset (cntRaw : Bool) : (Timebase.afterReset cntRaw).InRange := by
  simp [Timebase.InRange, Timebase.afterReset]

theorem Link.countsBounded_afterReset (rate1 rate0 rxRaw : Bool) :
    (Link.afterReset rate1 rate0 rxRaw).CountsBounded := by
  simp [Link.CountsBounded, Link.afterReset]

theorem Channel.countsBounded_afterReset (level : Bool) : (Channel.afterReset level).CountsBounded := by
  simp [Channel.CountsBounded, Channel.afterReset]

/-- Every block at its reset values is in bounds. -/
theorem State.inBounds_of_afterReset {s : State} {cnt rate1 rate0 rx : Bool} {level : ChanIx → Bool}
    (ht : s.timebase = Timebase.afterReset cnt) (hl : s.link = Link.afterReset rate1 rate0 rx)
    (hc : ∀ c, s.channel c = Channel.afterReset (level c)) (he : ∀ i, s.entry i = none) : s.InBounds := by
  refine ⟨?_, ?_, fun c => ?_, fun i => ?_⟩
  · rw [ht]; exact Timebase.inRange_afterReset _
  · rw [hl]; exact Link.countsBounded_afterReset _ _ _
  · rw [hc]; exact Channel.countsBounded_afterReset _
  · rw [he]; exact entryCountsBounded_none

theorem State.inBounds_beginReset (s : State) (cause : ResetCause) : (s.beginReset cause).InBounds :=
  State.inBounds_of_afterReset rfl rfl (level := fun c => (s.channel c).raw)
    (by simp [State.channel, State.beginReset]) (by simp [State.entry, State.beginReset])

theorem State.inBounds_afterReset (s : State) (cause : ResetCause) : (s.afterReset cause).InBounds :=
  State.inBounds_of_afterReset rfl rfl (level := fun c => (s.channel c).raw)
    (by simp [State.channel, State.afterReset]) (by simp [State.entry, State.afterReset])

theorem State.inBounds_endReset (s : State) (cause : ResetCause) : (s.endReset cause).InBounds := by
  have fresh := s.inBounds_afterReset cause
  unfold State.endReset
  refine State.InBounds.transmitChoice ?_
  split
  · exact fresh.addCause _
  · exact fresh

/-- A frame's end begins the device reset of a RESTART or frees the transmitter (R159, R176). -/
theorem State.InBounds.frameEnds {s : State} (h : s.InBounds) : s.frameEnds.InBounds := by
  have freed : (s.setLink { s.link with tx := none }).InBounds := h.setLink h.link
  unfold State.frameEnds
  split
  · exact h.transmitChoice
  · split
    · exact s.inBounds_beginReset _
    · refine State.InBounds.transmitChoice ?_
      split
      · exact freed
      · exact freed.setReports _

/-! ### Admission (section 8.2) -/

section Admission

variable {s : State} (h : s.InBounds)
include h

theorem State.InBounds.admitItem (item : Ready) : (s.admitItem item).InBounds := by
  cases item with
  | halt =>
    change s.admitHalt.InBounds
    unfold State.admitHalt
    split
    · exact (h.setHalt _).setReports _
    · exact h
  | entry i =>
    change (s.admitEntry i).InBounds
    unfold State.admitEntry
    split
    · split
      · refine State.InBounds.setReports (h.setEntry i ?_) _
        split
        · exact entryCountsBounded_none
        · exact entryCountsBounded_some EntrySlot.countsBounded_empty
      · exact h
    · exact h
  | level c =>
    change (s.admitLevel c).InBounds
    unfold State.admitLevel
    split
    · obtain ⟨hg, hl, -⟩ := h.channel c
      refine State.InBounds.setReports ?_ _
      exact h.setChannel c ⟨hg, hl, by simp⟩
    · exact h
  | batch c =>
    obtain ⟨hg, -, hn⟩ := h.channel c
    exact (h.setChannel c (ch := (s.channel c).afterBatch) ⟨hg, Nat.zero_le _, hn⟩).setReports _

theorem State.InBounds.admitOne : s.admitOne.InBounds := by
  unfold State.admitOne
  split
  · split
    · exact (h.admitItem _).transmitChoice
    · exact h
  · exact h

end Admission

/-! ### Requests -/

/-- A handler keeps the condition. -/
def Handler.KeepsBounds (f : Handler) : Prop := ∀ (body : List Byte) (s : State), s.InBounds → (f body s).2.InBounds

/-- A handler that leaves the state as it found it: a refusal, or a request that only reads. -/
theorem Handler.keepsBounds_of_reads {f : Handler} (hf : ∀ body s, (f body s).2 = s) : f.KeepsBounds := by
  intro body s h
  rwa [hf]

theorem helloRequest_reads (body : List Byte) (s : State) : (helloRequest body s).2 = s := by
  unfold helloRequest
  split <;> rfl

theorem timeReadRequest_reads (body : List Byte) (s : State) : (timeReadRequest body s).2 = s := by
  unfold timeReadRequest
  split <;> rfl

theorem entryQueryRequest_reads (body : List Byte) (s : State) : (entryQueryRequest body s).2 = s := by
  unfold entryQueryRequest
  split
  · rfl
  · split <;> rfl

theorem entryListRequest_reads (body : List Byte) (s : State) : (entryListRequest body s).2 = s := by
  unfold entryListRequest
  split <;> rfl

theorem linesReadRequest_reads (body : List Byte) (s : State) : (linesReadRequest body s).2 = s := by
  unfold linesReadRequest
  split <;> rfl

theorem readTimeSetup_divider {body : List Byte} {source : Source} {divider : Nat}
    (h : readTimeSetup body = .ok (source, divider)) : 1 ≤ divider ∧ divider ≤ 65535 := by
  unfold readTimeSetup at h
  split at h
  · split at h
    · split at h
      · cases h
      · next lo hi _ _ _ hz =>
        obtain ⟨-, rfl⟩ := Prod.mk.inj (Except.ok.inj h)
        have hlo := lo.isLt
        have hhi := hi.isLt
        unfold number16 at hz ⊢
        omega
    · cases h
  · cases h

theorem keepsBounds_statusRequest : Handler.KeepsBounds statusRequest := by
  intro body s h
  unfold statusRequest
  split
  · exact h
  · dsimp only [accept]
    split
    · exact h.setLink ⟨Nat.zero_le _, Nat.zero_le _, Nat.zero_le _, Nat.zero_le _⟩
    · exact h

theorem keepsBounds_restartRequest : Handler.KeepsBounds restartRequest := by
  intro body s h
  unfold restartRequest
  split
  · exact h
  · exact h.setLink h.link

theorem keepsBounds_ackRequest : Handler.KeepsBounds ackRequest := by
  intro body s h
  unfold ackRequest
  split
  · exact h
  · split
    · exact h.setReports _
    · split <;> exact h

theorem keepsBounds_reportsOnRequest : Handler.KeepsBounds reportsOnRequest := by
  intro body s h
  unfold reportsOnRequest
  split
  · exact h
  · split
    · exact h
    · exact h.setReports _

theorem keepsBounds_linkSetupRequest : Handler.KeepsBounds linkSetupRequest := by
  intro body s h
  unfold linkSetupRequest
  split
  · exact h
  · exact h.setReports _

theorem keepsBounds_linkResetRequest : Handler.KeepsBounds linkResetRequest := by
  intro body s h
  unfold linkResetRequest
  split
  · exact h
  · exact ((h.returnBatches _).setReports _).setLink h.link

theorem keepsBounds_timeSetupRequest : Handler.KeepsBounds timeSetupRequest := by
  intro body s h
  unfold timeSetupRequest
  split
  · exact h
  · next source divider hr =>
    obtain ⟨hlow, hhigh⟩ := readTimeSetup_divider hr
    split
    · exact h
    · exact h.setTimebase ⟨hlow, hhigh, hlow, fun _ => rfl⟩

theorem keepsBounds_timeSetRequest : Handler.KeepsBounds timeSetRequest := by
  intro body s h
  unfold timeSetRequest
  split
  · exact h
  · split
    · exact h
    · refine State.InBounds.restartReferences ?_
      exact h.setTimebase h.timebase

/-- The Timebase with its prescale phase at 0, in either state. -/
theorem State.InBounds.phaseZero {s : State} (h : s.InBounds) (state : TimebaseState) :
    (s.setTimebase { s.timebase with state := state, prescale := 0 }).InBounds := by
  obtain ⟨hlow, hhigh, -, -⟩ := h.timebase
  exact h.setTimebase ⟨hlow, hhigh, hlow, fun _ => rfl⟩

theorem keepsBounds_timeRunRequest : Handler.KeepsBounds timeRunRequest := by
  intro body s h
  unfold timeRunRequest
  split
  · exact h
  · split
    · exact h
    · exact (h.phaseZero .running).restartReferences

theorem keepsBounds_timeStopRequest : Handler.KeepsBounds timeStopRequest := by
  intro body s h
  unfold timeStopRequest
  split
  · exact h
  · split
    · exact h.phaseZero .stopped
    · exact h

theorem State.InBounds.placeAt {s : State} (h : s.InBounds) (i : EntryIx) (p : Plan) : (s.placeAt i p).2.InBounds := by
  have fresh : ∀ progress, (p.newEntry progress).slot.CountsBounded := fun _ => EntrySlot.countsBounded_empty
  unfold State.placeAt
  split
  · exact h.putEntry i (entryCountsBounded_some (fresh _))
  · exact h.putEntry i (entryCountsBounded_some (fresh _))
  · split
    · dsimp only
      split
      · exact h.beginMissed i (fresh _) _
      · exact h.beginLate i (fresh _) _ _
    · exact h.putEntry i (entryCountsBounded_some (fresh _))

theorem keepsBounds_placeRequest : Handler.KeepsBounds placeRequest := by
  intro body s h
  unfold placeRequest
  split
  · exact h
  · split
    · exact h
    · split
      · exact h
      · split
        · exact h
        · split
          · exact h
          · exact h.placeAt _ _

theorem keepsBounds_cancelRequest : Handler.KeepsBounds cancelRequest := by
  intro body s h
  unfold cancelRequest
  split
  · exact h
  · dsimp only
    split
    · exact h
    · exact State.InBounds.foldl (fun _ i hu => hu.cancelEntry i) _ h

theorem keepsBounds_timelineClearRequest : Handler.KeepsBounds timelineClearRequest := by
  intro body s h
  unfold timelineClearRequest
  split
  · exact h
  · obtain ⟨ht, hl, hc, -⟩ := State.InBounds.foldl (fun _ i hu => hu.clearTrailing i) s.dueList h
    refine ⟨ht, hl, hc, fun i => ?_⟩
    have free : (Vector.replicate 64 (none : Option Entry))[i.val] = none := by simp
    change EntryCountsBounded (Vector.replicate 64 (none : Option Entry))[i.val]
    rw [free]
    exact entryCountsBounded_none

theorem keepsBounds_lineSetupRequest : Handler.KeepsBounds lineSetupRequest := by
  intro body s h
  unfold lineSetupRequest
  split
  · exact h
  · split
    · exact h
    · exact h.setLines _

theorem keepsBounds_lineWriteRequest : Handler.KeepsBounds lineWriteRequest := by
  intro body s h
  unfold lineWriteRequest
  split
  · exact h
  · split
    · exact h
    · split
      · exact h
      · exact h.setLines _

theorem keepsBounds_haltRequest : Handler.KeepsBounds haltRequest := by
  intro body s h
  unfold haltRequest
  split
  · exact h
  · exact h.addCause _

theorem keepsBounds_resumeRequest : Handler.KeepsBounds resumeRequest := by
  intro body s h
  unfold resumeRequest
  split
  · exact h
  · split
    · split
      · exact h
      · exact h.setHalt _
    · exact h

theorem keepsBounds_stopSetupRequest : Handler.KeepsBounds stopSetupRequest := by
  intro body s h
  unfold stopSetupRequest
  split
  · exact h
  · dsimp only [accept]
    split
    · exact (h.setHalt _).addCause _
    · exact h.setHalt _

theorem keepsBounds_channelSetupRequest : Handler.KeepsBounds channelSetupRequest := by
  intro body s h
  unfold channelSetupRequest
  split
  · exact h
  · split
    · exact h
    · exact h.sameCounts _ rfl rfl rfl

theorem keepsBounds_channelQueryRequest : Handler.KeepsBounds channelQueryRequest := by
  intro body s h
  unfold channelQueryRequest
  split
  · exact h
  · next c clear _ =>
    dsimp only [accept]
    split
    · obtain ⟨-, hl, hn⟩ := h.channel c
      exact h.setChannel c ⟨Nat.zero_le _, hl, hn⟩
    · exact h

theorem State.InBounds.flushAll {s : State} (h : s.InBounds) (named : List ChanIx) : (s.flushAll named).InBounds := by
  refine State.InBounds.foldl (fun u c hu => hu.setChannel c ?_) named h
  unfold Channel.flush
  split <;> exact hu.channel c

theorem keepsBounds_flushRequest : Handler.KeepsBounds flushRequest := by
  intro body s h
  unfold flushRequest
  split
  · exact h
  · exact h.flushAll _

/-- Every request's handler keeps the condition; HELLO, TIME-READ, ENTRY-QUERY, ENTRY-LIST and LINES-READ only read. -/
theorem keepsBounds_handlerFor (k : RequestKind) : (handlerFor k).KeepsBounds := by
  cases k with
  | hello => exact Handler.keepsBounds_of_reads helloRequest_reads
  | status => exact keepsBounds_statusRequest
  | restart => exact keepsBounds_restartRequest
  | ack => exact keepsBounds_ackRequest
  | reportsOn => exact keepsBounds_reportsOnRequest
  | linkSetup => exact keepsBounds_linkSetupRequest
  | linkReset => exact keepsBounds_linkResetRequest
  | timeSetup => exact keepsBounds_timeSetupRequest
  | timeSet => exact keepsBounds_timeSetRequest
  | timeRun => exact keepsBounds_timeRunRequest
  | timeStop => exact keepsBounds_timeStopRequest
  | timeRead => exact Handler.keepsBounds_of_reads timeReadRequest_reads
  | place => exact keepsBounds_placeRequest
  | entryQuery => exact Handler.keepsBounds_of_reads entryQueryRequest_reads
  | entryList => exact Handler.keepsBounds_of_reads entryListRequest_reads
  | cancel => exact keepsBounds_cancelRequest
  | timelineClear => exact keepsBounds_timelineClearRequest
  | lineSetup => exact keepsBounds_lineSetupRequest
  | lineWrite => exact keepsBounds_lineWriteRequest
  | linesRead => exact Handler.keepsBounds_of_reads linesReadRequest_reads
  | halt => exact keepsBounds_haltRequest
  | resume => exact keepsBounds_resumeRequest
  | stopSetup => exact keepsBounds_stopSetupRequest
  | channelSetup => exact keepsBounds_channelSetupRequest
  | channelQuery => exact keepsBounds_channelQueryRequest
  | flush => exact keepsBounds_flushRequest

theorem keepsBounds_handlerOf (kind : Byte) : (handlerOf kind).KeepsBounds := by
  unfold handlerOf
  split
  · exact keepsBounds_handlerFor _
  · exact Handler.keepsBounds_of_reads fun _ _ => rfl

section Requests

variable {s : State} (h : s.InBounds) {f : Handler} (hf : f.KeepsBounds)
include h hf

theorem State.InBounds.takeHead (g : Frame) : (s.takeHead f g).InBounds := by
  have taken : (s.setLink { s.link with requests := s.link.requests.tail }).InBounds := h.setLink h.link
  refine State.InBounds.transmitChoice ?_
  unfold State.executeFrame
  split
  · exact taken.setLink taken.link
  · have done := hf g.body _ taken
    exact done.setLink done.link

theorem State.InBounds.requestStep (g : Frame) : (requestStep f g s).InBounds := by
  have offered : (if s.headIs g then s else s.offerFrame g).InBounds := by
    split
    · exact h
    · exact h.offerFrame g
  unfold Machine.requestStep
  split
  · exact h
  · split
    · exact h.framingError
    · dsimp only
      generalize (if s.headIs g then s else s.offerFrame g) = u at offered ⊢
      split
      · exact offered.takeHead hf g
      · exact offered

end Requests

/-! ### The base clock (chapter 1, section 9.3) -/

section Periods

variable {s : State} (h : s.InBounds)
include h

theorem State.InBounds.internalTick : s.internalTick.InBounds := by
  unfold State.internalTick
  split
  · exact (h.phaseZero s.timebase.state).advance
  · exact h

theorem State.InBounds.cntRise : s.cntRise.InBounds := by
  unfold State.cntRise
  split
  · exact h.advance
  · exact h

/-- The phase counts only while RUNNING and only below the divider; the period that would reach the divider is the tick
(R3). -/
theorem State.InBounds.prescalePeriod : s.prescalePeriod.InBounds := by
  obtain ⟨hlow, hhigh, -, -⟩ := h.timebase
  unfold State.prescalePeriod
  split
  · next hr =>
    have running : s.timebase.state = .running := by
      simp only [State.running, Bool.and_eq_true, decide_eq_true_eq] at hr
      exact hr.1
    split
    · exact h.internalTick
    · next hd => exact h.setTimebase ⟨hlow, hhigh, Nat.lt_of_not_le hd, fun hs => by simp [running] at hs⟩
  · exact h

theorem State.InBounds.cntPeriod : s.cntPeriod.InBounds := by
  have sampled : (s.setTimebase { s.timebase with cntSample := some s.timebase.cntRaw }).InBounds :=
    h.setTimebase h.timebase
  unfold State.cntPeriod
  dsimp only
  split
  · exact sampled.cntRise
  · exact sampled

theorem State.InBounds.stopPeriod : s.stopPeriod.InBounds := by
  unfold State.stopPeriod
  split
  · split
    · exact h
    · exact h.setHalt _
  · split
    · exact h.setHalt _
    · split
      · exact h.acceptStop
      · exact h.setHalt _

theorem State.InBounds.inputPeriod (c : ChanIx) : (s.inputPeriod c).InBounds := by
  unfold State.inputPeriod
  dsimp only
  split
  · split
    · exact h
    · exact h.rawTransition c
  · split
    · exact h.glitch c
    · split
      · exact h.acceptEdge c _
      · exact h.sameCounts c rfl rfl rfl

theorem State.InBounds.inputsPeriod : s.inputsPeriod.InBounds :=
  State.InBounds.foldl (fun _ c hu => hu.inputPeriod c) _ h

theorem State.InBounds.rxPeriod : s.rxPeriod.InBounds := by
  have sampled : ∀ x, (s.setLink { s.link with rxSampler := x }).InBounds := fun _ => h.setLink h.link
  unfold State.rxPeriod
  dsimp only
  split
  · split
    · exact sampled _
    · exact h
  · split <;> exact sampled _
  · split
    · split <;> exact sampled _
    · split
      · exact sampled _
      · exact (sampled _).receive _ _

theorem State.InBounds.stepGap : s.stepGap.InBounds := by
  unfold State.stepGap
  split
  · exact h.gapAbort
  · exact h.setLink h.link

theorem State.InBounds.stepReportTimer : s.stepReportTimer.InBounds := by
  unfold State.stepReportTimer
  split
  · exact h.reportTimerExpires
  · exact h.setReports _

theorem State.InBounds.stepLinger (c : ChanIx) : (s.stepLinger c).InBounds := by
  unfold State.stepLinger
  split
  · exact h.lingerExpires c
  · exact h.sameCounts c rfl rfl rfl

theorem State.InBounds.msPeriod : s.msPeriod.InBounds := by
  unfold State.msPeriod
  split
  · have zeroed : (s.setTimebase { s.timebase with msPhase := 0 }).InBounds := h.setTimebase h.timebase
    exact State.InBounds.foldl (fun _ c hu => hu.stepLinger c) _ zeroed.stepGap.stepReportTimer
  · exact h.setTimebase h.timebase

theorem State.InBounds.txPeriod : s.txPeriod.InBounds := by
  unfold State.txPeriod
  split
  · exact h.transmitChoice
  · split
    · exact h.frameEnds
    · exact h.setLink h.link

theorem State.InBounds.serveRequest : s.serveRequest.InBounds := by
  unfold State.serveRequest
  split
  · split
    · exact h.takeHead (keepsBounds_handlerOf _) _
    · exact h
  · exact h

theorem State.InBounds.basePeriod : s.basePeriod.InBounds := by
  unfold State.basePeriod
  split
  · unfold State.holdPeriod
    split
    · exact s.inBounds_endReset _
    · exact h.congr rfl rfl rfl rfl
  · have ticked := h.prescalePeriod.cntPeriod
    have sampled := ticked.stopPeriod.inputsPeriod.rxPeriod
    exact sampled.msPeriod.txPeriod.serveRequest.admitOne

end Periods

/-! ### Every command and every step -/

/-- A command that is a request runs `requestStep` with the handler of its kind. -/
theorem exec_command (k : RequestKind) (seq : Byte) (body : List Byte) (s : State) :
    exec (k.command seq body) s = .next (requestStep (handlerFor k) ⟨k.code, seq, body⟩ s) := by
  cases k <;> rfl

theorem State.InBounds.exec_command {s t : State} (h : s.InBounds) (k : RequestKind) (seq : Byte) (body : List Byte)
    (he : exec (k.command seq body) s = .next t) : t.InBounds := by
  rw [Machine.exec_command] at he
  cases he
  exact h.requestStep (keepsBounds_handlerFor k) _

theorem State.InBounds.exec {s t : State} (h : s.InBounds) {c : Instr} (he : exec c s = .next t) : t.InBounds := by
  cases c with
  | hello seq body => exact h.exec_command .hello seq body he
  | status seq body => exact h.exec_command .status seq body he
  | restart seq body => exact h.exec_command .restart seq body he
  | unknown kind seq body => cases he; exact h.requestStep (keepsBounds_handlerOf kind) _
  | answerCacheResend kind seq body => cases he; exact h.requestStep (keepsBounds_handlerOf kind) _
  | ack seq body => exact h.exec_command .ack seq body he
  | reportsOn seq body => exact h.exec_command .reportsOn seq body he
  | linkSetup seq body => exact h.exec_command .linkSetup seq body he
  | linkReset seq body => exact h.exec_command .linkReset seq body he
  | timeSetup seq body => exact h.exec_command .timeSetup seq body he
  | timeSet seq body => exact h.exec_command .timeSet seq body he
  | timeRun seq body => exact h.exec_command .timeRun seq body he
  | timeStop seq body => exact h.exec_command .timeStop seq body he
  | timeRead seq body => exact h.exec_command .timeRead seq body he
  | place seq body => exact h.exec_command .place seq body he
  | entryQuery seq body => exact h.exec_command .entryQuery seq body he
  | entryList seq body => exact h.exec_command .entryList seq body he
  | cancel seq body => exact h.exec_command .cancel seq body he
  | timelineClear seq body => exact h.exec_command .timelineClear seq body he
  | lineSetup seq body => exact h.exec_command .lineSetup seq body he
  | lineWrite seq body => exact h.exec_command .lineWrite seq body he
  | linesRead seq body => exact h.exec_command .linesRead seq body he
  | halt seq body => exact h.exec_command .halt seq body he
  | resume seq body => exact h.exec_command .resume seq body he
  | stopSetup seq body => exact h.exec_command .stopSetup seq body he
  | channelSetup seq body => exact h.exec_command .channelSetup seq body he
  | channelQuery seq body => exact h.exec_command .channelQuery seq body he
  | flush seq body => exact h.exec_command .flush seq body he
  | internalTick => cases he; exact h.internalTick
  | cntRisingEdge =>
    cases he
    split
    · exact h
    · exact (h.setTimebase (t := { s.timebase with cntRaw := true, cntSample := some true }) h.timebase).cntRise
  | rawTransition c =>
    cases he
    split
    · exact h
    · exact h.rawTransition c
  | glitch c =>
    cases he
    split
    · exact h.glitch c
    · split
      · exact h
      · exact h.sameCounts c rfl rfl rfl
  | edgeAccepted c =>
    cases he
    split
    · refine State.InBounds.acceptEdge ?_ c _
      exact h.sameCounts c rfl rfl rfl
    · exact h
  | stopWindowOpen =>
    cases he
    split
    · exact h
    · exact h.setHalt _
  | stopGlitch =>
    cases he
    split
    · exact h.setHalt _
    · exact h
  | stopLevelAccepted =>
    cases he
    split
    · exact (h.setHalt _).acceptStop
    · exact h
  | lingerExpiry c =>
    cases he
    split
    · exact h.lingerExpires c
    · exact h
  | reportTimerExpiry =>
    cases he
    split
    · exact h.reportTimerExpires.transmitChoice
    · exact h
  | admission => cases he; exact h.admitOne
  | rxCharacter value stopBit =>
    cases he
    split
    · exact h
    · exact h.receive value stopBit
  | gapAbort =>
    cases he
    split
    · exact h
    · exact h.gapAbort
  | txFrameEnd => cases he; exact h.frameEnds
  | powerOn => cases he; exact s.inBounds_beginReset _
  | resetPin =>
    cases he
    split
    · split
      · exact h
      · exact s.inBounds_beginReset _
    · exact s.inBounds_beginReset _
  | resetEnd rate1 rate0 stop inputs =>
    cases he
    split
    · exact State.inBounds_endReset _ _
    · exact h

theorem State.InBounds.step {s t : State} (h : s.InBounds) (hs : step s = .next t) : t.InBounds := by
  unfold Machine.step at hs
  split at hs
  · next c rest _ =>
    have ready : (s.setPending rest).InBounds := h.congr rfl rfl rfl rfl
    exact ready.exec hs
  · cases hs
    exact h.basePeriod

/-- Settles O4: each item's range is kept by every operation, so by every command and every period. -/
theorem timebaseAndCountersKept : Obligations.TimebaseAndCountersKept := by
  intro s t ht hc hs
  exact t.inBounds_iff.mp ((s.inBounds_iff.mpr ⟨ht, hc⟩).step hs)

end Sys2Proof.Machine
end

section
/-! PROOF. The Timebase's requests (section 1.5): TIME-SETUP, TIME-SET, TIME-RUN and TIME-STOP, each refused or executed with
the whole next state. -/

namespace Sys2Proof.Machine

/-! ### A request command, refused or answered OK -/

section Answers

variable {s t : State} {k : RequestKind} {seq : Byte} {body : List Byte} (hx : Executes s (k.frame seq body))
  (hl : body.length ≤ 512)
include hx hl

theorem exec_refused {st : Status} (he : handlerFor k body s.dequeued = refuse st s.dequeued) :
    exec (k.command seq body) s = .next (s.refused k seq st) := by
  rw [exec_command, ← requestStep_no hx hl he]

theorem exec_accepted {fields : AnswerFields} (he : handlerFor k body s.dequeued = accept fields t)
    (ht : t.link = s.dequeued.link) (hh : t.hold = s.hold) :
    exec (k.command seq body) s = .next { t with link := s.link.answered (k.okAnswer seq fields) } := by
  rw [exec_command, ← requestStep_ok hx hl he ht hh]

end Answers

/-! ### What the readers answer -/

theorem readEmpty_ne {body : List Byte} (h : body ≠ []) : readEmpty body = .error .format := by
  cases body with
  | nil => exact absurd rfl h
  | cons b rest => rfl

theorem readTimeSetup_length {body : List Byte} (h : body.length ≠ 3) : readTimeSetup body = .error .format := by
  unfold readTimeSetup
  split
  · exact absurd rfl h
  · rfl

theorem readTimeSet_length {body : List Byte} (h : body.length ≠ 4) : readTimeSet body = .error .format := by
  unfold readTimeSet
  split
  · exact absurd rfl h
  · rfl

/-- A source code of 0 or 1 (Table 11-2). -/
theorem Source.ofCode_of_le {b : Byte} (h : b.toNat ≤ 1) :
    Source.ofCode b = some (if b = 0 then .internal else .external) := by
  have code : b = 0 ∨ b = 1 := by bv_omega
  rcases code with rfl | rfl <;> rfl

theorem Source.ofCode_of_lt {b : Byte} (h : 1 < b.toNat) : Source.ofCode b = none := by
  have h0 : b ≠ 0 := by bv_omega
  have h1 : b ≠ 1 := by bv_omega
  rw [Source.ofCode, if_neg h0, if_neg h1]

theorem readTimeSetup_value {src lo hi : Byte} (h : 1 < src.toNat ∨ number16 lo hi = 0) :
    readTimeSetup [src, lo, hi] = .error .value := by
  simp only [readTimeSetup]
  split
  · next source hs =>
    have hz : number16 lo hi = 0 := h.resolve_left fun hc => by simp [Source.ofCode_of_lt hc] at hs
    simp [hz]
  · rfl

theorem readTimeSetup_ok {src lo hi : Byte} (hs : src.toNat ≤ 1) (hd : 0 < number16 lo hi) :
    readTimeSetup [src, lo, hi] = .ok (if src = 0 then .internal else .external, number16 lo hi) := by
  simp [readTimeSetup, Source.ofCode_of_le hs, hd.ne']

/-! ### The states in which the Timebase may be set -/

theorem State.running_iff (s : State) : s.running = true ↔ s.timebase.state = .running := decide_eq_true_iff

theorem State.running_eq_false {s : State} (h : s.timebase.state = .stopped) : s.running = false := by
  simp [State.running, h]

/-- RUNNING, or an entry is live: the test of R9 and R10. -/
theorem State.timeHeld_iff (s : State) :
    (s.running || s.anyLive) = true ↔ s.timebase.state = .running ∨ LiveEntry s := by
  rw [Bool.or_eq_true, s.running_iff, s.anyLive_iff]

theorem State.timeHeld_eq_false {s : State} (hs : s.timebase.state = .stopped) (hn : ¬LiveEntry s) :
    (s.running || s.anyLive) = false := by
  rw [Bool.eq_false_iff, Ne, s.timeHeld_iff, hs]
  simpa using hn

/-! ### The handlers, case by case -/

section Handlers

variable {s : State} {body : List Byte}

theorem timeSetupRequest_error {st : Status} (hr : readTimeSetup body = .error st) :
    timeSetupRequest body s = refuse st s := by
  simp only [timeSetupRequest, hr]

theorem timeSetupRequest_held {r : Source × Nat} (hr : readTimeSetup body = .ok r)
    (hh : (s.running || s.anyLive) = true) : timeSetupRequest body s = refuse .state s := by
  simp only [timeSetupRequest, hr, hh, if_true]

theorem timeSetupRequest_free {source : Source} {divider : Nat} (hr : readTimeSetup body = .ok (source, divider))
    (hh : (s.running || s.anyLive) = false) :
    timeSetupRequest body s =
      accept .none (s.setTimebase { s.timebase with source := source, divider := divider, prescale := 0 }) := by
  simp [timeSetupRequest, hr, hh]

theorem timeSetRequest_error {st : Status} (hr : readTimeSet body = .error st) :
    timeSetRequest body s = refuse st s := by
  simp only [timeSetRequest, hr]

theorem timeSetRequest_held {count : Tick} (hr : readTimeSet body = .ok count)
    (hh : (s.running || s.anyLive) = true) : timeSetRequest body s = refuse .state s := by
  simp only [timeSetRequest, hr, hh, if_true]

theorem timeSetRequest_free {count : Tick} (hr : readTimeSet body = .ok count)
    (hh : (s.running || s.anyLive) = false) :
    timeSetRequest body s =
      accept .none ((s.setTimebase { s.timebase with count := count }).restartReferences) := by
  simp [timeSetRequest, hr, hh]

theorem timeRunRequest_error (hb : body ≠ []) : timeRunRequest body s = refuse .format s := by
  simp only [timeRunRequest, readEmpty_ne hb]

theorem timeRunRequest_running (hs : s.running = true) : timeRunRequest [] s = accept (.tick s.now) s := by
  simp [timeRunRequest, readEmpty, hs]

theorem timeRunRequest_stopped (hs : s.running = false) :
    timeRunRequest [] s =
      accept (.tick s.now)
        ((s.setTimebase { s.timebase with state := .running, prescale := 0 }).restartReferences) := by
  simp [timeRunRequest, readEmpty, hs]

theorem timeStopRequest_error (hb : body ≠ []) : timeStopRequest body s = refuse .format s := by
  simp only [timeStopRequest, readEmpty_ne hb]

theorem timeStopRequest_running (hs : s.running = true) :
    timeStopRequest [] s =
      accept (.tick s.now) (s.setTimebase { s.timebase with state := .stopped, prescale := 0 }) := by
  simp [timeStopRequest, readEmpty, hs]

theorem timeStopRequest_stopped (hs : s.running = false) : timeStopRequest [] s = accept (.tick s.now) s := by
  simp [timeStopRequest, readEmpty, hs]

end Handlers

/-! ### The statements -/

/-- Settles O32: the reader's answer, then the test of R9, give the case. -/
theorem timeSetupSets : Obligations.TimeSetupSets := by
  intro s seq body hl hx
  refine ⟨fun hb => exec_refused (k := .timeSetup) hx hl (timeSetupRequest_error (readTimeSetup_length hb)), ?_⟩
  rintro src lo hi rfl
  refine ⟨fun hv => ?_, fun hs hd hh => ?_, fun hs hd hstop hn => ?_⟩
  · exact exec_refused (k := .timeSetup) hx hl (timeSetupRequest_error (readTimeSetup_value hv))
  · exact exec_refused (k := .timeSetup) hx hl
      (timeSetupRequest_held (readTimeSetup_ok hs hd) (s.timeHeld_iff.mpr hh))
  · exact exec_accepted (k := .timeSetup) hx hl
      (timeSetupRequest_free (readTimeSetup_ok hs hd) (State.timeHeld_eq_false hstop hn)) rfl rfl

/-- Settles O33: the reader's answer, then the test of R10, give the case. -/
theorem timeSetLoads : Obligations.TimeSetLoads := by
  intro s seq body hl hx
  refine ⟨fun hb => exec_refused (k := .timeSet) hx hl (timeSetRequest_error (readTimeSet_length hb)), ?_⟩
  rintro b0 b1 b2 b3 rfl
  have count : readTimeSet [b0, b1, b2, b3] = .ok (b3 ++ b2 ++ b1 ++ b0) := rfl
  refine ⟨fun hh => ?_, fun hstop hn => ?_⟩
  · exact exec_refused (k := .timeSet) hx hl (timeSetRequest_held count (s.timeHeld_iff.mpr hh))
  · exact exec_accepted (k := .timeSet) hx hl (timeSetRequest_free count (State.timeHeld_eq_false hstop hn)) rfl rfl

/-- Settles O34: the body, then the state of the timebase, give the case. -/
theorem timeRunAndStop : Obligations.TimeRunAndStop := by
  constructor
  · intro s seq body hl hx
    refine ⟨fun hb => exec_refused (k := .timeRun) hx hl (timeRunRequest_error hb), ?_, ?_⟩
    · rintro rfl hs
      exact exec_accepted (k := .timeRun) hx hl (timeRunRequest_stopped (State.running_eq_false hs)) rfl rfl
    · rintro rfl hs
      exact exec_accepted (k := .timeRun) (t := s.dequeued) hx hl
        (timeRunRequest_running (s.running_iff.mpr hs)) rfl rfl
  · intro s seq body hl hx
    refine ⟨fun hb => exec_refused (k := .timeStop) hx hl (timeStopRequest_error hb), ?_, ?_⟩
    · rintro rfl hs
      exact exec_accepted (k := .timeStop) hx hl (timeStopRequest_running (s.running_iff.mpr hs)) rfl rfl
    · rintro rfl hs
      exact exec_accepted (k := .timeStop) (t := s.dequeued) hx hl
        (timeStopRequest_stopped (State.running_eq_false hs)) rfl rfl

end Sys2Proof.Machine
end

section
/-! PROOF. Ticks and timers (sections 1.1, 1.2, 1.4): what a tick does, when internal ticks fall, and when a timer of the
millisecond clock expires. -/

namespace Sys2Proof.Machine

/-! ### Ticks -/

section Ticks

variable {s : State}

theorem State.internalTick_counts (hr : s.timebase.state = .running) (hs : s.timebase.source = .internal) :
    s.internalTick = State.serveDue s.dueList.length s.ticked := by
  have counts : (s.running && decide (s.timebase.source = .internal)) = true := by simp [State.running, hr, hs]
  rw [State.internalTick, if_pos counts]
  rfl

theorem State.internalTick_idle (h : s.timebase.state = .stopped ∨ s.timebase.source = .external) :
    s.internalTick = s := by
  unfold State.internalTick
  rcases h with h | h <;> simp [State.running, h]

theorem State.cntRise_counts (hr : s.timebase.state = .running) (hs : s.timebase.source = .external) :
    s.cntRise = s.advance := by
  simp [State.cntRise, s.running_iff.mpr hr, hs]

theorem State.cntRise_idle (h : s.timebase.state = .stopped ∨ s.timebase.source = .internal) : s.cntRise = s := by
  unfold State.cntRise
  rcases h with h | h <;> simp [State.running, h]

theorem exec_cntRisingEdge (hh : s.hold = none) :
    exec .cntRisingEdge s =
      .next (s.setTimebase { s.timebase with cntRaw := true, cntSample := some true }).cntRise := by
  simp [exec, execCntRisingEdge, hh]

/-- A rising edge of the sampled pin is the command's (R4). -/
theorem State.cntPeriod_edge (hr : s.timebase.cntRaw = true) (hp : s.timebase.cntSample = some false) :
    s.cntPeriod = (s.setTimebase { s.timebase with cntRaw := true, cntSample := some true }).cntRise := by
  simp [State.cntPeriod, hr, hp]

/-- Without one only the sample is kept (R4). -/
theorem State.cntPeriod_noEdge (h : ¬(s.timebase.cntRaw = true ∧ s.timebase.cntSample = some false)) :
    s.cntPeriod = s.setTimebase { s.timebase with cntSample := some s.timebase.cntRaw } := by
  simp [State.cntPeriod, h]

/-- With the head of the list not reached, or no head, nothing is served (R39). -/
theorem State.serveDue_unreached (n : Nat)
    (h : ∀ i ∈ s.dueList.head?, ∀ d, s.dueOf i = some d → reached s.timebase.count d = false) :
    State.serveDue n s = s := by
  cases hl : s.dueList with
  | nil => cases n <;> simp [State.serveDue, hl]
  | cons i rest =>
    have ahead : s.dueReached i = false := by
      unfold State.dueReached
      split
      · next d hd => exact h i (by simp [hl]) d hd
      · rfl
    exact State.serveDue_ahead hl ahead n

end Ticks

/-- Settles O35: the ticks that count, those that do not, the edge of CNT, and a head that lies ahead. -/
theorem tickAdvances : Obligations.TickAdvances := by
  refine ⟨fun s => ⟨fun hr hs => ?_, fun hh hr hs => ?_, fun hi => ?_, fun hh hi => ?_⟩,
    fun s hh => ⟨fun ⟨hr, hp⟩ => ?_, fun hn => s.cntPeriod_noEdge hn⟩, fun u n h => State.serveDue_unreached n h⟩
  · exact congrArg _ (State.internalTick_counts hr hs)
  · rw [exec_cntRisingEdge hh, State.cntRise_counts (by exact hr) (by exact hs)]
    rfl
  · exact congrArg _ (State.internalTick_idle hi)
  · rw [exec_cntRisingEdge hh, State.cntRise_idle (by exact hi)]
    rfl
  · rw [exec_cntRisingEdge hh, State.cntPeriod_edge hr hp]

/-! ### The prescale phase (R3) -/

section Prescale

variable {s : State} (hr : s.timebase.state = .running) (hs : s.timebase.source = .internal)
include hr hs

theorem State.prescalePeriod_counts (hp : s.timebase.prescale + 1 < s.timebase.divider) :
    s.prescalePeriod = s.setTimebase { s.timebase with prescale := s.timebase.prescale + 1 } := by
  simp [State.prescalePeriod, s.running_iff.mpr hr, hs, hp]

theorem State.prescalePeriod_ticks (hp : s.timebase.prescale + 1 = s.timebase.divider) :
    s.prescalePeriod = s.internalTick := by
  simp [State.prescalePeriod, s.running_iff.mpr hr, hs, hp]

/-- Below the divider each period counts one. -/
theorem State.prescalePeriod_iterate (n : Nat) (hp : s.timebase.prescale + n < s.timebase.divider) :
    State.prescalePeriod^[n] s = s.setTimebase { s.timebase with prescale := s.timebase.prescale + n } := by
  induction n with
  | zero => rfl
  | succ n ih =>
    rw [Function.iterate_succ_apply', ih (by omega),
      State.prescalePeriod_counts (by exact hr) (by exact hs) (by exact hp)]
    rfl

/-- The tick does not look at the phase it puts at 0. -/
theorem State.internalTick_prescale (p : Nat) :
    (s.setTimebase { s.timebase with prescale := p }).internalTick = s.internalTick := by
  rw [State.internalTick_counts hr hs, State.internalTick_counts (by exact hr) (by exact hs)]
  rfl

/-- The period in which the phase reaches the divider is the tick. -/
theorem State.prescalePeriod_iterate_divider (n : Nat) (hp : s.timebase.prescale < s.timebase.divider)
    (hn : s.timebase.prescale + n = s.timebase.divider) : State.prescalePeriod^[n] s = s.internalTick := by
  obtain _ | m := n
  · omega
  · rw [Function.iterate_succ_apply', State.prescalePeriod_iterate hr hs m (by omega),
      State.prescalePeriod_ticks (by exact hr) (by exact hs) (by exact hn), State.internalTick_prescale hr hs]

theorem State.internalTick_nil (hd : s.dueList = []) : s.internalTick = s.ticked := by
  rw [State.internalTick_counts hr hs, hd]
  rfl

end Prescale

theorem State.prescalePeriod_idle {s : State} (h : s.timebase.state = .stopped ∨ s.timebase.source = .external) :
    s.prescalePeriod = s := by
  unfold State.prescalePeriod
  rcases h with h | h <;> simp [State.running, h]

/-! ### The millisecond clock (R8) -/

theorem State.msPeriod_iterate {s : State} (n : Nat) (hp : s.timebase.msPhase + n < 24000) :
    State.msPeriod^[n] s = s.setTimebase { s.timebase with msPhase := s.timebase.msPhase + n } := by
  induction n with
  | zero => rfl
  | succ n ih =>
    have below : ¬Config.periodsPerMs ≤ s.timebase.msPhase + n + 1 := by
      unfold Config.periodsPerMs
      omega
    rw [Function.iterate_succ_apply', ih (by omega), State.msPeriod, State.setTimebase_timebase, if_neg below]
    rfl

/-- The period that completes 24,000 is a step. -/
theorem State.msPeriod_iterate_step {s : State} (n : Nat) (hp : s.timebase.msPhase < 24000)
    (hn : s.timebase.msPhase + n = 24000) :
    State.msPeriod^[n] s = (s.setTimebase { s.timebase with msPhase := 0 }).msStep := by
  obtain _ | m := n
  · omega
  · have full : Config.periodsPerMs ≤ s.timebase.msPhase + m + 1 := hn.ge
    rw [Function.iterate_succ_apply', State.msPeriod_iterate m (by omega), State.msPeriod, State.setTimebase_timebase,
      if_pos full]
    rfl

/-! ### Timers (R8) -/

@[simp] theorem stepTimer_none : stepTimer none = (false, none) := rfl

@[simp] theorem stepTimer_one : stepTimer (some 1) = (true, none) := rfl

@[simp] theorem stepTimer_add_two (k : Nat) : stepTimer (some (k + 2)) = (false, some (k + 1)) := by
  simp [stepTimer]

/-- A timer of N milliseconds has N + 1 - k steps to go after k of them. -/
theorem stepTimer_iterate {n k : Nat} (hk : k ≤ n) :
    (fun t => (stepTimer t).2)^[k] (startTimer n) = some (n + 1 - k) := by
  induction k with
  | zero => rfl
  | succ k ih =>
    have left : n + 1 - k = (n - (k + 1)) + 2 := by omega
    rw [Function.iterate_succ_apply', ih (by omega), left, stepTimer_add_two]
    exact congrArg some (by omega)

/-- It expires at the step after the N-th. -/
theorem stepTimer_expires {n k : Nat} (hk : k ≤ n) : (stepTimer (some (n + 1 - k))).1 = decide (k = n) := by
  rcases hk.lt_or_eq with hlt | rfl
  · have left : n + 1 - k = (n - k - 1) + 2 := by omega
    rw [left, stepTimer_add_two]
    simp [hlt.ne]
  · simp

theorem State.setChannel_self (s : State) (c : ChanIx) : s.setChannel c (s.channel c) = s := by
  simp [State.setChannel, State.channel]

section Timers

variable {s : State} {c : ChanIx}

theorem State.stepGap_none (h : s.link.gapTimer = none) : s.stepGap = s := by
  simp only [State.stepGap, h, stepTimer_none, Bool.false_eq_true, if_false]
  rw [← h]
  rfl

theorem State.stepGap_counts {k : Nat} (h : s.link.gapTimer = some (k + 2)) :
    s.stepGap = s.setLink { s.link with gapTimer := some (k + 1) } := by
  simp [State.stepGap, h]

theorem State.stepGap_expires (h : s.link.gapTimer = some 1) : s.stepGap = s.gapAbort := by
  simp [State.stepGap, h]

theorem State.stepReportTimer_none (h : s.reports.timer = none) : s.stepReportTimer = s := by
  simp only [State.stepReportTimer, h, stepTimer_none, Bool.false_eq_true, if_false]
  rw [← h]
  rfl

theorem State.stepReportTimer_counts {k : Nat} (h : s.reports.timer = some (k + 2)) :
    s.stepReportTimer = s.setReports { s.reports with timer := some (k + 1) } := by
  simp [State.stepReportTimer, h]

theorem State.stepReportTimer_expires (h : s.reports.timer = some 1) : s.stepReportTimer = s.reportTimerExpires := by
  simp [State.stepReportTimer, h]

theorem State.stepLinger_none (h : (s.channel c).lingerTimer = none) : s.stepLinger c = s := by
  simp only [State.stepLinger, h, stepTimer_none, Bool.false_eq_true, if_false]
  rw [← h]
  exact s.setChannel_self c

theorem State.stepLinger_counts {k : Nat} (h : (s.channel c).lingerTimer = some (k + 2)) :
    s.stepLinger c = s.setChannel c { s.channel c with lingerTimer := some (k + 1) } := by
  simp [State.stepLinger, h]

theorem State.stepLinger_expires (h : (s.channel c).lingerTimer = some 1) : s.stepLinger c = s.lingerExpires c := by
  simp [State.stepLinger, h]

end Timers

/-- Settles O36: the phase by induction on the periods, each timer by what a step makes of it. -/
theorem ticksAndTimers : Obligations.TicksAndTimers := by
  refine ⟨fun s n hr hs hp => ⟨State.prescalePeriod_iterate hr hs n, fun hn => ?_⟩,
    fun s h => State.prescalePeriod_idle h,
    fun s n hp => ⟨State.msPeriod_iterate n, State.msPeriod_iterate_step n hp⟩,
    fun s c k => ⟨State.stepGap_none, State.stepGap_counts, fun h hn => ?_, State.stepReportTimer_none,
      State.stepReportTimer_counts, fun h => ?_, State.stepLinger_none, State.stepLinger_counts, fun h => ?_⟩,
    fun n k _ hk => ?_⟩
  · rw [State.prescalePeriod_iterate_divider hr hs n hp hn]
    exact ⟨rfl, State.internalTick_nil hr hs⟩
  · simp [exec, execGapAbort, hn, State.stepGap_expires h]
  · simp [exec, execReportTimerExpiry, h, State.stepReportTimer_expires h]
  · simp [exec, execLingerExpiry, h, State.stepLinger_expires h]
  · rw [stepTimer_iterate hk]
    exact ⟨rfl, stepTimer_expires hk⟩

end Sys2Proof.Machine
end

section
/-! PROOF. The state after reset (R15, R38, R74, R89, R106, R127, R148, R163): no entry, every line and channel at its reset
values, START alone in the Report Queue. -/

namespace Sys2Proof.Machine

@[simp] theorem State.reset_entry (i : EntryIx) : State.reset.entry i = none := by
  simp [State.entry, State.reset]

@[simp] theorem State.reset_line (n : LineIx) : State.reset.line n = OutLine.afterReset := by
  simp [State.line, State.reset]

@[simp] theorem State.reset_channel (c : ChanIx) : State.reset.channel c = Channel.afterReset false := by
  simp [State.channel, State.reset]

@[simp] theorem State.reset_dueList : State.reset.dueList = [] := rfl

@[simp] theorem State.reset_dueOf (i : EntryIx) : State.reset.dueOf i = none := by
  simp [State.dueOf]

theorem State.reset_halted : State.reset.halted = false := rfl

/-- No channel holds a record: the one report is START (R107). -/
theorem State.reset_heldCount (c : ChanIx) : State.reset.heldCount c = 0 := by
  simp only [State.heldCount, State.reset_channel]
  rfl

theorem State.reset_heldTotal : State.reset.heldTotal = 0 := by
  have none_held : State.reset.heldCount = fun _ => 0 := funext State.reset_heldCount
  simp [State.heldTotal, none_held]

theorem State.reset_lineHeld (n : LineIx) : State.reset.lineHeld n = false := by
  rw [Bool.eq_false_iff, Ne, State.lineHeld_iff]
  simp [LineClaimed]

theorem State.reset_channelHeld (c : ChanIx) : State.reset.channelHeld c = false := by
  rw [Bool.eq_false_iff, Ne, State.channelHeld_iff]
  simp

theorem State.reset_inBounds : State.reset.InBounds :=
  State.inBounds_of_afterReset rfl rfl State.reset_channel State.reset_entry

theorem linkStoresOk_reset : LinkStoresOk State.reset := ⟨Nat.zero_le _, Nat.zero_le _, List.nodup_nil⟩

/-- START stands alone in the queue, unsent, with the number before the next. -/
theorem reportsOk_reset : ReportsOk State.reset.reports := by decide

theorem journalOk_reset : JournalOk State.reset := by
  refine ⟨fun c => ?_, ?_⟩
  · rw [State.reset_heldCount]
    exact Nat.zero_le _
  · rw [State.reset_heldTotal]
    exact Nat.zero_le _

theorem dueListOk_reset : DueListOk State.reset := by
  refine ⟨List.nodup_nil, fun i => ?_⟩
  simp

theorem haltOk_reset : HaltOk State.reset := by
  intro h
  simp [State.reset_halted] at h

theorem linesOk_reset : LinesOk State.reset := by
  intro n h
  simp [State.reset_lineHeld] at h

theorem triggersOk_reset : TriggersOk State.reset := by
  intro c h
  simp [State.reset_channelHeld] at h

/-- No record stands in the table at reset, so what every record satisfies holds (R38). -/
theorem State.reset_forall_entry (p : Entry → Prop) : ∀ i : EntryIx, ∀ e ∈ State.reset.entry i, p e := by
  simp

theorem dueOrderOk_reset : DueOrderOk State.reset := by
  refine ⟨List.Pairwise.nil, ?_⟩
  simp

/-- Settles O3: each condition at the reset values. -/
theorem invariantsAtReset : Obligations.InvariantsAtReset := by
  obtain ⟨timebase, counters⟩ := State.reset.inBounds_iff.mp State.reset_inBounds
  exact ⟨timebase, counters, linkStoresOk_reset, reportsOk_reset, journalOk_reset, dueListOk_reset, haltOk_reset,
    linesOk_reset, triggersOk_reset, State.reset_forall_entry _, State.reset_forall_entry _, dueOrderOk_reset⟩

end Sys2Proof.Machine
end

section
/-! PROOF. PLACE's body (section 2.5, Table 11-4): the reader's optional fields, the plan that the fields name, and the
FORMAT check. The reader accepts exactly the bodies of plans in range. -/

namespace Sys2Proof.Machine

/-! ### Numbers and their bytes (R179) -/

theorem number16_bytes16 {n : Nat} (h : n < 65536) : number16 (BitVec.ofNat 8 n) (BitVec.ofNat 8 (n / 256)) = n := by
  unfold number16
  simp only [BitVec.toNat_ofNat]
  omega

theorem bytes16_number16 (low high : Byte) : bytes16 (number16 low high) = [low, high] := by
  have hl := low.isLt
  have hh := high.isLt
  unfold bytes16 number16
  simp only [List.cons.injEq, and_true]
  constructor <;> exact BitVec.eq_of_toNat_eq (by simp only [BitVec.toNat_ofNat]; omega)

theorem number16_lt (low high : Byte) : number16 low high < 65536 := by
  have hl := low.isLt
  have hh := high.isLt
  unfold number16
  omega

theorem tag16_toNat (low high : Byte) : (tag16 low high).toNat = number16 low high := by
  have hl := low.isLt
  unfold tag16 number16
  rw [BitVec.toNat_append, ← Nat.shiftLeft_add_eq_or_of_lt hl, Nat.shiftLeft_eq]
  omega

theorem tag16_bytes16 (t : BitVec 16) : tag16 (BitVec.ofNat 8 t.toNat) (BitVec.ofNat 8 (t.toNat / 256)) = t := by
  apply BitVec.eq_of_toNat_eq
  rw [tag16_toNat, number16_bytes16 t.isLt]

theorem tick32_toNat (b0 b1 b2 b3 : Byte) :
    (tick32 b0 b1 b2 b3).toNat = b0.toNat + 256 * b1.toNat + 65536 * b2.toNat + 16777216 * b3.toNat := by
  have h0 := b0.isLt
  have h1 := b1.isLt
  have h2 := b2.isLt
  unfold tick32
  simp only [BitVec.toNat_append]
  rw [← Nat.shiftLeft_add_eq_or_of_lt h0, ← Nat.shiftLeft_add_eq_or_of_lt h1, ← Nat.shiftLeft_add_eq_or_of_lt h2]
  simp only [Nat.shiftLeft_eq]
  omega

theorem tickBytes_tick32 (b0 b1 b2 b3 : Byte) : tickBytes (tick32 b0 b1 b2 b3) = [b0, b1, b2, b3] := by
  have h0 := b0.isLt
  have h1 := b1.isLt
  have h2 := b2.isLt
  have h3 := b3.isLt
  unfold tickBytes bytes32
  rw [tick32_toNat]
  simp only [List.cons.injEq, and_true]
  refine ⟨?_, ?_, ?_, ?_⟩ <;> exact BitVec.eq_of_toNat_eq (by simp only [BitVec.toNat_ofNat]; omega)

theorem tick32_tickBytes (t : Tick) :
    tick32 (BitVec.ofNat 8 t.toNat) (BitVec.ofNat 8 (t.toNat / 256)) (BitVec.ofNat 8 (t.toNat / 65536))
      (BitVec.ofNat 8 (t.toNat / 16777216)) = t := by
  have h := t.isLt
  apply BitVec.eq_of_toNat_eq
  rw [tick32_toNat]
  simp only [BitVec.toNat_ofNat]
  omega

/-! ### The optional fields (R182) -/

/-- `take` reads an optional field: present, it takes the field's bytes off the front; absent, none. -/
def ReadsField {α : Type} (take : Bool → List Byte → Taken α) (bytes : α → List Byte) (fits : α → Prop) : Prop :=
  ∀ present body o rest,
    take present body = some (o, rest) ↔ o.isSome = present ∧ (∀ a ∈ o, fits a) ∧ body = optBytes bytes o ++ rest

/-- A reader that reads an absent field as none, and a present one by its bytes. -/
theorem readsField_of_present {α : Type} {take : Bool → List Byte → Taken α} {bytes : α → List Byte} {fits : α → Prop}
    (habsent : ∀ body, take false body = some (none, body))
    (hread : ∀ body o rest, take true body = some (o, rest) → ∃ a, o = some a ∧ fits a ∧ body = bytes a ++ rest)
    (hform : ∀ a rest, fits a → take true (bytes a ++ rest) = some (some a, rest)) : ReadsField take bytes fits := by
  intro present body o rest
  cases present with
  | false =>
    rw [habsent, Option.some.injEq, Prod.mk.injEq]
    cases o with
    | none => simp [optBytes]
    | some a => simp
  | true =>
    constructor
    · intro h
      obtain ⟨a, rfl, hfits, rfl⟩ := hread body o rest h
      exact ⟨rfl, by simpa using hfits, rfl⟩
    · rintro ⟨hsome, hfits, rfl⟩
      obtain ⟨a, rfl⟩ := Option.isSome_iff_exists.mp hsome
      exact hform a rest (hfits a rfl)

theorem takeTick_reads : ReadsField takeTick tickBytes fun _ => True := by
  refine readsField_of_present (fun _ => rfl) (fun body o rest h => ?_) fun t rest _ => ?_
  · simp only [takeTick, if_true] at h
    split at h
    · next b0 b1 b2 b3 _ =>
      cases h
      exact ⟨_, rfl, trivial, by rw [tickBytes_tick32]; rfl⟩
    · cases h
  · simp only [takeTick, if_true, tickBytes, bytes32, List.cons_append, List.nil_append, tick32_tickBytes]

theorem takeNumber_reads : ReadsField takeNumber bytes16 (· < 65536) := by
  refine readsField_of_present (fun _ => rfl) (fun body o rest h => ?_) fun n rest hn => ?_
  · simp only [takeNumber, if_true] at h
    split at h
    · cases h
      exact ⟨_, rfl, number16_lt _ _, by rw [bytes16_number16]; rfl⟩
    · cases h
  · simp only [takeNumber, if_true, bytes16, List.cons_append, List.nil_append, number16_bytes16 hn]

theorem takeByte_reads : ReadsField takeByte (fun b => [b]) fun _ => True := by
  refine readsField_of_present (fun _ => rfl) (fun body o rest h => ?_) fun b rest _ => rfl
  simp only [takeByte, if_true] at h
  split at h
  · cases h
    exact ⟨_, rfl, trivial, rfl⟩
  · cases h

/-- The bytes of a trigger: channel, sense, delay (Table 11-4). -/
def triggerFieldBytes (t : Byte × Byte × Tick) : List Byte := t.1 :: t.2.1 :: tickBytes t.2.2

theorem takeTrigger_reads : ReadsField takeTrigger triggerFieldBytes fun _ => True := by
  refine readsField_of_present (fun _ => rfl) (fun body o rest h => ?_) fun t rest _ => ?_
  · simp only [takeTrigger, if_true] at h
    split at h
    · cases h
      exact ⟨_, rfl, trivial, by simp [triggerFieldBytes, tickBytes_tick32]⟩
    · cases h
  · simp only [takeTrigger, if_true, triggerFieldBytes, tickBytes, bytes32, List.cons_append, List.nil_append,
      tick32_tickBytes]

/-! ### The fields of a PLACE body (Table 11-4) -/

/-- The presence indicator. -/
def PlaceFields.presence (f : PlaceFields) : Byte :=
  BitVec.ofNat 8 (memberBit f.width.isSome 0 + memberBit f.startTime.isSome 1 + memberBit f.startDelay.isSome 2 +
    memberBit f.trigger.isSome 3 + memberBit f.arms.isSome 4 + memberBit f.late.isSome 5 + memberBit f.period.isSome 6 +
    memberBit f.count.isSome 7)

/-- The bytes behind the presence indicator. -/
def PlaceFields.tail (f : PlaceFields) : List Byte :=
  optBytes tickBytes f.width ++ (optBytes tickBytes f.startTime ++ (optBytes tickBytes f.startDelay ++
    (optBytes triggerFieldBytes f.trigger ++ (optBytes bytes16 f.arms ++ (optBytes (fun b => [b]) f.late ++
      (optBytes tickBytes f.period ++ optBytes bytes16 f.count))))))

/-- The body that carries the fields. -/
def PlaceFields.body (f : PlaceFields) : List Byte :=
  bytes16 f.tag.toNat ++ f.line :: f.action :: f.start :: f.notify :: f.presence :: f.tail

/-- The arms and the count take two bytes. -/
def PlaceFields.CountsFit (f : PlaceFields) : Prop := (∀ n ∈ f.arms, n < 65536) ∧ ∀ n ∈ f.count, n < 65536

/-- A byte is the sum of its bits. -/
theorem byte_of_bits (p : Byte) :
    BitVec.ofNat 8 (memberBit (p.getLsbD 0) 0 + memberBit (p.getLsbD 1) 1 + memberBit (p.getLsbD 2) 2 +
      memberBit (p.getLsbD 3) 3 + memberBit (p.getLsbD 4) 4 + memberBit (p.getLsbD 5) 5 + memberBit (p.getLsbD 6) 6 +
      memberBit (p.getLsbD 7) 7) = p := by
  revert p
  decide

/-- The bits of the sum of a set's members. -/
theorem bits_of_members (b0 b1 b2 b3 b4 b5 b6 b7 : Bool) :
    let p : Byte := BitVec.ofNat 8 (memberBit b0 0 + memberBit b1 1 + memberBit b2 2 + memberBit b3 3 + memberBit b4 4 +
      memberBit b5 5 + memberBit b6 6 + memberBit b7 7)
    p.getLsbD 0 = b0 ∧ p.getLsbD 1 = b1 ∧ p.getLsbD 2 = b2 ∧ p.getLsbD 3 = b3 ∧ p.getLsbD 4 = b4 ∧ p.getLsbD 5 = b5 ∧
      p.getLsbD 6 = b6 ∧ p.getLsbD 7 = b7 := by
  revert b0 b1 b2 b3 b4 b5 b6 b7
  decide

/-- The reader takes exactly the bodies of its fields, each of them as those fields. -/
theorem readPlaceFields_iff (body : List Byte) (f : PlaceFields) :
    readPlaceFields body = some f ↔ f.CountsFit ∧ body = f.body := by
  constructor
  · intro h
    unfold readPlaceFields at h
    split at h
    · next t0 t1 line action start notify p rest =>
      simp only [Option.bind_eq_bind, Option.bind_eq_some_iff, Prod.exists] at h
      obtain ⟨width, r0, h0, time, r1, h1, delay, r2, h2, trigger, r3, h3, arms, r4, h4, late, r5, h5, period, r6, h6,
        count, r7, h7, hend⟩ := h
      obtain ⟨p0, -, rfl⟩ := (takeTick_reads _ _ _ _).mp h0
      obtain ⟨p1, -, rfl⟩ := (takeTick_reads _ _ _ _).mp h1
      obtain ⟨p2, -, rfl⟩ := (takeTick_reads _ _ _ _).mp h2
      obtain ⟨p3, -, rfl⟩ := (takeTrigger_reads _ _ _ _).mp h3
      obtain ⟨p4, harms, rfl⟩ := (takeNumber_reads _ _ _ _).mp h4
      obtain ⟨p5, -, rfl⟩ := (takeByte_reads _ _ _ _).mp h5
      obtain ⟨p6, -, rfl⟩ := (takeTick_reads _ _ _ _).mp h6
      obtain ⟨p7, hcount, rfl⟩ := (takeNumber_reads _ _ _ _).mp h7
      split at hend
      · cases hend
        refine ⟨⟨harms, hcount⟩, ?_⟩
        simp only [PlaceFields.body, PlaceFields.presence, PlaceFields.tail, p0, p1, p2, p3, p4, p5, p6, p7, byte_of_bits,
          tag16_toNat, bytes16_number16, List.cons_append, List.nil_append, List.append_nil]
      · cases hend
    · cases h
  · rintro ⟨⟨harms, hcount⟩, rfl⟩
    obtain ⟨p0, p1, p2, p3, p4, p5, p6, p7⟩ := bits_of_members f.width.isSome f.startTime.isSome f.startDelay.isSome
      f.trigger.isSome f.arms.isSome f.late.isSome f.period.isSome f.count.isSome
    simp only [PlaceFields.body, bytes16, List.cons_append, List.nil_append, readPlaceFields, PlaceFields.presence,
      PlaceFields.tail, p0, p1, p2, p3, p4, p5, p6, p7, Option.bind_eq_bind]
    rw [(takeTick_reads _ _ f.width _).mpr ⟨rfl, by simp, rfl⟩, Option.bind_some,
      (takeTick_reads _ _ f.startTime _).mpr ⟨rfl, by simp, rfl⟩, Option.bind_some,
      (takeTick_reads _ _ f.startDelay _).mpr ⟨rfl, by simp, rfl⟩, Option.bind_some,
      (takeTrigger_reads _ _ f.trigger _).mpr ⟨rfl, by simp, rfl⟩, Option.bind_some,
      (takeNumber_reads _ _ f.arms _).mpr ⟨rfl, harms, rfl⟩, Option.bind_some,
      (takeByte_reads _ _ f.late _).mpr ⟨rfl, by simp, rfl⟩, Option.bind_some,
      (takeTick_reads _ _ f.period _).mpr ⟨rfl, by simp, rfl⟩, Option.bind_some,
      (takeNumber_reads _ _ f.count []).mpr ⟨rfl, hcount, (List.append_nil _).symm⟩, Option.bind_some]
    dsimp only
    rw [tag16_bytes16]

/-! ### The plan that the fields name (Table 2-1, Table 11-2) -/

/-- The trigger of a start form as a body carries it (Table 11-4). -/
def Start.triggerField : Start → Option (Byte × Byte × Tick)
  | .onTrigger c sense d _ => some (BitVec.ofNat 8 c.val, BitVec.ofNat 8 sense.code, d)
  | _ => none

/-- The fields that name a plan. -/
def Plan.fields (p : Plan) : PlaceFields where
  tag := p.tag
  line := BitVec.ofNat 8 p.line.val
  action := BitVec.ofNat 8 p.action.code
  start := BitVec.ofNat 8 p.start.code
  notify := BitVec.ofNat 8 p.notifyCode
  width := p.action.width
  startTime := p.start.time
  startDelay := p.start.delay
  trigger := p.start.triggerField
  arms := p.start.arms
  late := p.start.late.map fun l => BitVec.ofNat 8 l.code
  period := p.rep.map Repeat.period
  count := p.rep.map Repeat.count

theorem Plan.fields_body (p : Plan) : p.fields.body = p.body := by
  obtain ⟨tag, line, action, start, rep, each, final⟩ := p
  cases start <;> cases rep <;>
    simp [Plan.fields, PlaceFields.body, PlaceFields.presence, PlaceFields.tail, Plan.body, bytes8, Start.triggerField,
      Start.time, Start.delay, Start.arms, Start.late, Start.triggerBytes, optBytes, triggerFieldBytes]

theorem below_iff {b : Byte} {i : Fin 16} : below 16 b = some i ↔ b = BitVec.ofNat 8 i.val := by
  have hi := i.isLt
  rw [BitVec.toNat_eq, BitVec.toNat_ofNat, Nat.mod_eq_of_lt (by omega)]
  unfold below
  split
  · simp [Fin.ext_iff]
  · simp only [false_iff, reduceCtorEq]
    omega

theorem placeAction_iff {code : Byte} {width : Option Tick} {a : Action} :
    placeAction code width = some a ↔
      code = BitVec.ofNat 8 a.code ∧ width = a.width ∧ a.width.all withinHorizon = true := by
  constructor
  · intro h
    unfold placeAction at h
    split at h
    · split_ifs at h with h0 h1 h2 <;> cases h <;> simp_all [Action.code, Action.width]
    · split_ifs at h with hw h3 h4 <;> cases h <;> simp_all [Action.code, Action.width]
  · rintro ⟨rfl, rfl, hw⟩
    cases a <;> simp_all [placeAction, Action.code, Action.width]

theorem LatePolicy.ofCode_iff {b : Byte} {l : LatePolicy} :
    LatePolicy.ofCode b = some l ↔ b = BitVec.ofNat 8 l.code := by
  constructor
  · intro h
    unfold LatePolicy.ofCode at h
    split_ifs at h <;> cases h <;> assumption
  · rintro rfl
    cases l <;> rfl

theorem TriggerSense.ofCode_iff {b : Byte} {sense : TriggerSense} :
    TriggerSense.ofCode b = some sense ↔ b = BitVec.ofNat 8 sense.code := by
  constructor
  · intro h
    unfold TriggerSense.ofCode at h
    split_ifs at h <;> cases h <;> assumption
  · rintro rfl
    cases sense <;> rfl

/-- The start form is read from the fields it has, with the fields of the other forms absent (R26). -/
theorem PlaceFields.startForm_iff {f : PlaceFields} (hf : f.CountsFit) {st : Start} :
    f.startForm = some st ↔
      (f.start = BitVec.ofNat 8 st.code ∧ f.startTime = st.time ∧ f.startDelay = st.delay ∧
        f.trigger = st.triggerField ∧ f.arms = st.arms ∧ f.late = st.late.map fun l => BitVec.ofNat 8 l.code) ∧
      st.inRange = true := by
  obtain ⟨harms, -⟩ := hf
  constructor
  · intro h
    unfold PlaceFields.startForm at h
    split at h
    · next hs =>
      split at h
      · next t code ht hd htr ha hl =>
        obtain ⟨late, hlate, rfl⟩ := Option.map_eq_some_iff.mp h
        exact ⟨⟨hs, ht, hd, htr, ha, hl.trans (congrArg some (LatePolicy.ofCode_iff.mp hlate))⟩, rfl⟩
      · cases h
    · split at h
      · next hs =>
        split at h
        · next d ht hd htr ha hl =>
          split at h
          · next hrange =>
            cases h
            exact ⟨⟨hs, ht, hd, htr, ha, hl⟩, hrange⟩
          · cases h
        · cases h
      · split at h
        · next hs =>
          split at h
          · next c sn d arms ht hd htr ha hl =>
            split at h
            · next ch sense hc hsense =>
              split at h
              · next hrange =>
                cases h
                refine ⟨⟨hs, ht, hd, ?_, ha, hl⟩, ?_⟩
                · rw [htr, below_iff.mp hc, TriggerSense.ofCode_iff.mp hsense]
                  rfl
                · simpa [Start.inRange] using ⟨hrange, harms arms ha⟩
              · cases h
            · cases h
          · cases h
        · cases h
  · rintro ⟨⟨hs, ht, hd, htr, ha, hl⟩, hrange⟩
    unfold PlaceFields.startForm
    rw [hs, ht, hd, htr, ha, hl]
    cases st with
    | atTime t late => simp [Start.code, Start.time, Start.delay, Start.triggerField, Start.arms, Start.late,
        LatePolicy.ofCode_iff.mpr rfl]
    | afterDelay d =>
      simp only [Start.inRange] at hrange
      simp [Start.code, Start.time, Start.delay, Start.triggerField, Start.arms, Start.late, hrange]
    | onTrigger c sense d arms =>
      simp only [Start.inRange, Bool.and_eq_true, decide_eq_true_eq] at hrange
      simp [Start.code, Start.time, Start.delay, Start.triggerField, Start.arms, Start.late, hrange.1,
        below_iff.mpr rfl, TriggerSense.ofCode_iff.mpr rfl]

/-- A period and a count stand together, or neither (R26). -/
theorem PlaceFields.repetition_iff {f : PlaceFields} (hf : f.CountsFit) {rep : Option Repeat} :
    f.repetition = some rep ↔
      (f.period = rep.map Repeat.period ∧ f.count = rep.map Repeat.count) ∧
      rep.all (fun r => withinHorizon r.period && decide (r.count < 65536)) = true := by
  obtain ⟨-, hcount⟩ := hf
  constructor
  · intro h
    unfold PlaceFields.repetition at h
    split at h
    · next hp hc =>
      cases h
      exact ⟨⟨hp, hc⟩, rfl⟩
    · next p c hp hc =>
      split at h
      · next hrange =>
        cases h
        exact ⟨⟨hp, hc⟩, by simpa [hrange] using hcount c hc⟩
      · cases h
    · cases h
  · rintro ⟨⟨hp, hc⟩, hrange⟩
    unfold PlaceFields.repetition
    rw [hp, hc]
    cases rep with
    | none => rfl
    | some r =>
      simp only [Option.all_some, Bool.and_eq_true] at hrange
      simp [hrange.1]

theorem widthFits_eq (width : Option Tick) (rep : Option Repeat) :
    widthFits width (rep.map Repeat.period) =
      width.all fun w => rep.all fun r => decide (w.toNat < r.period.toNat) := by
  cases width <;> cases rep <;> rfl

/-- A notify set in range is the sum of its two members (R20). -/
theorem notify_iff (b : Byte) (each final : Bool) :
    (b.toNat ≤ 3 ∧ b.getLsbD 0 = each ∧ b.getLsbD 1 = final) ↔
      b = BitVec.ofNat 8 (memberBit each 0 + memberBit final 1) := by
  revert b each final
  decide

/-- The fields name a plan exactly when they are that plan's and it is in range (R26). -/
theorem PlaceFields.plan_iff {f : PlaceFields} (hf : f.CountsFit) {p : Plan} :
    f.plan = some p ↔ p.InRange ∧ f = p.fields := by
  constructor
  · intro h
    unfold PlaceFields.plan at h
    split at h
    · next line action start rep hline haction hstart hrep =>
      split at h
      · next hrange =>
        cases h
        obtain ⟨hcode, hwidth, hhorizon⟩ := placeAction_iff.mp haction
        obtain ⟨⟨hs, ht, hd, htr, ha, hl⟩, hstartRange⟩ := (PlaceFields.startForm_iff hf).mp hstart
        obtain ⟨⟨hperiod, hcount⟩, hrepRange⟩ := (PlaceFields.repetition_iff hf).mp hrep
        obtain ⟨hnotify, hfits⟩ := hrange
        rw [hperiod, widthFits_eq, hwidth] at hfits
        refine ⟨⟨hhorizon, hrepRange, hfits, hstartRange⟩, ?_⟩
        have notify := (notify_iff f.notify _ _).mp ⟨hnotify, rfl, rfl⟩
        cases f
        simp only [Plan.fields, Plan.notifyCode, PlaceFields.mk.injEq] at *
        exact ⟨trivial, below_iff.mp hline, hcode, hs, notify, hwidth, ht, hd, htr, ha, hl, hperiod, hcount⟩
      · cases h
    · cases h
  · rintro ⟨⟨hhorizon, hrepRange, hfits, hstartRange⟩, rfl⟩
    have line : below 16 p.fields.line = some p.line := below_iff.mpr rfl
    have action : placeAction p.fields.action p.fields.width = some p.action :=
      placeAction_iff.mpr ⟨rfl, rfl, hhorizon⟩
    have start : p.fields.startForm = some p.start :=
      (PlaceFields.startForm_iff hf).mpr ⟨⟨rfl, rfl, rfl, rfl, rfl, rfl⟩, hstartRange⟩
    have rep : p.fields.repetition = some p.rep := (PlaceFields.repetition_iff hf).mpr ⟨⟨rfl, rfl⟩, hrepRange⟩
    obtain ⟨hnotify, heach, hfinal⟩ := (notify_iff p.fields.notify p.each p.final).mpr rfl
    have width : widthFits p.fields.width p.fields.period = true := (widthFits_eq _ _).trans hfits
    unfold PlaceFields.plan
    simp only [line, action, start, rep]
    rw [if_pos ⟨hnotify, width⟩, heach, hfinal]
    rfl

theorem Plan.InRange.countsFit {p : Plan} (h : p.InRange) : p.fields.CountsFit := by
  obtain ⟨-, hrep, -, hstart⟩ := h
  constructor
  · intro n hn
    cases hs : p.start <;> simp_all [Plan.fields, Start.arms, Start.inRange]
  · intro n hn
    obtain ⟨r, hr, rfl⟩ := Option.map_eq_some_iff.mp hn
    simp only [hr, Option.all_some, Bool.and_eq_true, decide_eq_true_eq] at hrep
    exact hrep.2

/-- The fields of a plan pass the FORMAT check. -/
theorem Plan.fields_formatOk (p : Plan) : p.fields.formatOk = true := by
  obtain ⟨tag, line, action, start, rep, each, final⟩ := p
  have width : (Plan.fields ⟨tag, line, action, start, rep, each, final⟩).width.isSome =
      pulseCode (BitVec.ofNat 8 action.code) := by cases action <;> rfl
  unfold PlaceFields.formatOk
  rw [width]
  cases start <;> cases rep <;>
    simp [Plan.fields, Start.code, Start.time, Start.delay, Start.arms, Start.late, Start.triggerField]

/-! ### PLACE's three answers of its reader (R26) -/

theorem readPlace_format {body : List Byte} (h : ∀ f, readPlaceFields body = some f → f.formatOk = false) :
    readPlace body = .error .format := by
  unfold readPlace
  split
  · rfl
  · next f hf => rw [h f hf]; rfl

theorem readPlace_value {body : List Byte} {f : PlaceFields} (hf : readPlaceFields body = some f)
    (hk : f.formatOk = true) (hp : f.plan = none) : readPlace body = .error .value := by
  simp [readPlace, hf, hk, hp]

theorem readPlace_ok {body : List Byte} {f : PlaceFields} (hf : readPlaceFields body = some f)
    (hk : f.formatOk = true) {p : Plan} (hp : f.plan = some p) : readPlace body = .ok p := by
  simp [readPlace, hf, hk, hp]

/-- The reader accepts exactly the bodies of plans in range, each as that plan. -/
theorem readPlace_iff (body : List Byte) (p : Plan) : readPlace body = .ok p ↔ p.InRange ∧ body = p.body := by
  constructor
  · intro h
    cases hf : readPlaceFields body with
    | none => rw [readPlace_format (by simp [hf])] at h; cases h
    | some f =>
      cases hk : f.formatOk with
      | false => rw [readPlace_format (by simp [hf, hk])] at h; cases h
      | true =>
        obtain ⟨hfit, rfl⟩ := (readPlaceFields_iff _ _).mp hf
        cases hp : f.plan with
        | none => rw [readPlace_value hf hk hp] at h; cases h
        | some q =>
          rw [readPlace_ok hf hk hp] at h
          cases h
          obtain ⟨hrange, rfl⟩ := (PlaceFields.plan_iff hfit).mp hp
          exact ⟨hrange, p.fields_body⟩
  · rintro ⟨hrange, rfl⟩
    have hfit := hrange.countsFit
    have hf : readPlaceFields p.body = some p.fields := (readPlaceFields_iff _ _).mpr ⟨hfit, p.fields_body.symm⟩
    exact readPlace_ok hf p.fields_formatOk ((PlaceFields.plan_iff hfit).mpr ⟨hrange, rfl⟩)

/-! ### The FORMAT check of a PLACE body (R26, R182) -/

/-- The bytes an optional field of `n` bytes takes. -/
def fieldSize (present : Bool) (n : Nat) : Nat := if present then n else 0

/-- A field of `n` bytes that takes any bytes is read wherever its bytes are there. -/
theorem ReadsField.total {α : Type} {take : Bool → List Byte → Taken α} {bytes : α → List Byte} {fits : α → Prop}
    (h : ReadsField take bytes fits) {n : Nat} (hall : ∀ l : List Byte, l.length = n → ∃ a, fits a ∧ bytes a = l)
    (present : Bool) (body : List Byte) (hl : fieldSize present n ≤ body.length) :
    ∃ o rest, take present body = some (o, rest) ∧ rest.length + fieldSize present n = body.length := by
  cases present with
  | false => exact ⟨none, body, (h _ _ _ _).mpr ⟨rfl, by simp, rfl⟩, rfl⟩
  | true =>
    change n ≤ body.length at hl
    obtain ⟨a, hfits, ha⟩ := hall (body.take n) (List.length_take_of_le hl)
    refine ⟨some a, body.drop n, (h _ _ _ _).mpr ⟨rfl, by simpa using hfits, ?_⟩, ?_⟩
    · change body = bytes a ++ body.drop n
      rw [ha, List.take_append_drop]
    · change (body.drop n).length + n = body.length
      rw [List.length_drop]
      omega

theorem tickBytes_surjective (l : List Byte) (h : l.length = 4) : ∃ t, True ∧ tickBytes t = l := by
  match l, h with
  | [b0, b1, b2, b3], _ => exact ⟨tick32 b0 b1 b2 b3, trivial, tickBytes_tick32 b0 b1 b2 b3⟩

theorem bytes16_surjective (l : List Byte) (h : l.length = 2) : ∃ n, n < 65536 ∧ bytes16 n = l := by
  match l, h with
  | [low, high], _ => exact ⟨number16 low high, number16_lt low high, bytes16_number16 low high⟩

theorem byteField_surjective (l : List Byte) (h : l.length = 1) : ∃ b : Byte, True ∧ [b] = l := by
  match l, h with
  | [b], _ => exact ⟨b, trivial, rfl⟩

theorem triggerFieldBytes_surjective (l : List Byte) (h : l.length = 6) : ∃ t, True ∧ triggerFieldBytes t = l := by
  match l, h with
  | [c, sense, b0, b1, b2, b3], _ =>
    exact ⟨(c, sense, tick32 b0 b1 b2 b3), trivial, by simp [triggerFieldBytes, tickBytes_tick32]⟩

/-- The bytes behind the presence indicator `p` of a PLACE body. -/
def placeTailSize (p : Byte) : Nat :=
  fieldSize (p.getLsbD 0) 4 + fieldSize (p.getLsbD 1) 4 + fieldSize (p.getLsbD 2) 4 + fieldSize (p.getLsbD 3) 6 +
    fieldSize (p.getLsbD 4) 2 + fieldSize (p.getLsbD 5) 1 + fieldSize (p.getLsbD 6) 4 + fieldSize (p.getLsbD 7) 2

/-- A body as long as its presence indicator asks is read. -/
theorem readPlaceFields_total (t0 t1 line action start notify p : Byte) {rest : List Byte}
    (h : rest.length = placeTailSize p) :
    ∃ f, readPlaceFields (t0 :: t1 :: line :: action :: start :: notify :: p :: rest) = some f := by
  unfold placeTailSize at h
  obtain ⟨width, r0, e0, l0⟩ := takeTick_reads.total tickBytes_surjective (p.getLsbD 0) rest (by omega)
  obtain ⟨time, r1, e1, l1⟩ := takeTick_reads.total tickBytes_surjective (p.getLsbD 1) r0 (by omega)
  obtain ⟨delay, r2, e2, l2⟩ := takeTick_reads.total tickBytes_surjective (p.getLsbD 2) r1 (by omega)
  obtain ⟨trigger, r3, e3, l3⟩ := takeTrigger_reads.total triggerFieldBytes_surjective (p.getLsbD 3) r2 (by omega)
  obtain ⟨arms, r4, e4, l4⟩ := takeNumber_reads.total bytes16_surjective (p.getLsbD 4) r3 (by omega)
  obtain ⟨late, r5, e5, l5⟩ := takeByte_reads.total byteField_surjective (p.getLsbD 5) r4 (by omega)
  obtain ⟨period, r6, e6, l6⟩ := takeTick_reads.total tickBytes_surjective (p.getLsbD 6) r5 (by omega)
  obtain ⟨count, r7, e7, l7⟩ := takeNumber_reads.total bytes16_surjective (p.getLsbD 7) r6 (by omega)
  obtain rfl : r7 = [] := List.length_eq_zero_iff.mp (by omega)
  refine ⟨⟨tag16 t0 t1, line, action, start, notify, width, time, delay, trigger, arms, late, period, count⟩, ?_⟩
  simp only [readPlaceFields, e0, e1, e2, e3, e4, e5, e6, e7, Option.bind_eq_bind, Option.bind_some]

theorem length_optBytes {α : Type} {bytes : α → List Byte} {n : Nat} (h : ∀ a, (bytes a).length = n) (o : Option α) :
    (optBytes bytes o).length = fieldSize o.isSome n := by
  cases o with
  | none => rfl
  | some a => exact h a

theorem PlaceFields.presence_bits (f : PlaceFields) :
    f.presence.getLsbD 0 = f.width.isSome ∧ f.presence.getLsbD 1 = f.startTime.isSome ∧
      f.presence.getLsbD 2 = f.startDelay.isSome ∧ f.presence.getLsbD 3 = f.trigger.isSome ∧
      f.presence.getLsbD 4 = f.arms.isSome ∧ f.presence.getLsbD 5 = f.late.isSome ∧
      f.presence.getLsbD 6 = f.period.isSome ∧ f.presence.getLsbD 7 = f.count.isSome :=
  bits_of_members _ _ _ _ _ _ _ _

theorem PlaceFields.length_tail (f : PlaceFields) : f.tail.length = placeTailSize f.presence := by
  obtain ⟨p0, p1, p2, p3, p4, p5, p6, p7⟩ := f.presence_bits
  have tick : ∀ t, (tickBytes t).length = 4 := fun _ => rfl
  have number : ∀ n, (bytes16 n).length = 2 := fun _ => rfl
  simp only [PlaceFields.tail, placeTailSize, p0, p1, p2, p3, p4, p5, p6, p7, List.length_append, length_optBytes tick,
    length_optBytes number, length_optBytes (bytes := triggerFieldBytes) (n := 6) (fun _ => rfl),
    length_optBytes (bytes := fun b => [b]) (n := 1) (fun _ => rfl)]
  omega

/-- The check of the statement on a body as long as its presence indicator asks is the check of its fields. -/
theorem placeFits_body (f : PlaceFields) : placeFits f.body = f.formatOk := by
  obtain ⟨p0, p1, p2, p3, p4, p5, p6, p7⟩ := f.presence_bits
  have size : f.tail.length = placeTailSize f.presence := f.length_tail
  unfold placeTailSize fieldSize at size
  simp only [PlaceFields.body, bytes16, List.cons_append, List.nil_append, placeFits, size, decide_true, p0, p1, p2, p3,
    p4, p5, p6, p7, PlaceFields.formatOk, pulseCode, bne, Bool.true_and]

/-- The check passes exactly the bodies whose fields can be read and pass the reader's own check. -/
theorem placeFits_iff (body : List Byte) :
    placeFits body = true ↔ ∃ f, readPlaceFields body = some f ∧ f.formatOk = true := by
  constructor
  · intro h
    have read : ∃ f, readPlaceFields body = some f := by
      unfold placeFits at h
      split at h
      · simp only [Bool.and_eq_true, decide_eq_true_eq] at h
        obtain ⟨⟨⟨⟨⟨length, -⟩, -⟩, -⟩, -⟩, -⟩ := h
        exact readPlaceFields_total _ _ _ _ _ _ _ length
      · cases h
    obtain ⟨f, hf⟩ := read
    obtain ⟨-, rfl⟩ := (readPlaceFields_iff _ _).mp hf
    exact ⟨f, hf, by rwa [← placeFits_body]⟩
  · rintro ⟨f, hf, hk⟩
    obtain ⟨-, rfl⟩ := (readPlaceFields_iff _ _).mp hf
    rwa [placeFits_body]

theorem readPlace_unfit {body : List Byte} (h : placeFits body = false) : readPlace body = .error .format := by
  refine readPlace_format fun f hf => ?_
  by_contra hk
  simp [(placeFits_iff body).mpr ⟨f, hf, by simpa using hk⟩] at h

/-- A body that fits and carries no plan in range (R26). -/
theorem readPlace_no_plan {body : List Byte} (h : placeFits body = true) (hn : ∀ p : Plan, p.InRange → body ≠ p.body) :
    readPlace body = .error .value := by
  obtain ⟨f, hf, hk⟩ := (placeFits_iff body).mp h
  cases hp : f.plan with
  | none => exact readPlace_value hf hk hp
  | some p =>
    obtain ⟨hrange, hbody⟩ := (readPlace_iff body p).mp (readPlace_ok hf hk hp)
    exact absurd hbody (hn p hrange)

/-- A PLACE body has at most 34 bytes (Table 11-3). -/
theorem Plan.length_body (p : Plan) : p.body.length ≤ 34 := by
  have size := p.fields.length_tail
  have field : ∀ b n, fieldSize b n ≤ n := fun b n => by cases b <;> simp [fieldSize]
  have sum : placeTailSize p.fields.presence ≤ 4 + 4 + 4 + 6 + 2 + 1 + 4 + 2 := by
    unfold placeTailSize
    gcongr <;> exact field _ _
  rw [← p.fields_body]
  simp only [PlaceFields.body, bytes16, List.length_append, List.length_cons, List.length_nil]
  omega

end Sys2Proof.Machine
end

section
/-! PROOF. Due times and records (sections 1.3, 2.2, 3.1, 3.2): the distances that the Timeline's operations give a due time,
and what becomes of the record of an entry that an operation deals with. -/

namespace Sys2Proof.Machine

/-! ### Times that lie ahead (section 1.3) -/

/-- A time that is not reached, said of its distance: it lies ahead, by at most half the range of the count (R5, R6). -/
def Ahead (now t : Tick) : Prop := 1 ≤ distance now t ∧ distance now t ≤ 2 ^ 31

theorem distance_eq (now t : Tick) : distance now t = (2 ^ 32 - now.toNat + t.toNat) % 2 ^ 32 := BitVec.toNat_sub _ _

theorem distance_eq_zero_iff {now t : Tick} : distance now t = 0 ↔ t = now := by
  have hn := now.isLt
  have ht := t.isLt
  rw [distance_eq, BitVec.toNat_eq]
  omega

theorem backDistance_eq (now t : Tick) : backDistance now t = (2 ^ 32 - t.toNat + now.toNat) % 2 ^ 32 :=
  BitVec.toNat_sub _ _

theorem reached_iff (now t : Tick) : reached now t = true ↔ backDistance now t < 2 ^ 31 := decide_eq_true_iff

theorem reached_eq_false_iff (now t : Tick) : reached now t = false ↔ Ahead now t := by
  have hn := now.isLt
  have ht := t.isLt
  rw [Bool.eq_false_iff, Ne, reached_iff, Ahead, distance_eq, backDistance_eq]
  omega

/-- A time that is reached and not far from half the range behind is the count itself. -/
theorem eq_now_of_reached {now t : Tick} (hr : reached now t = true) (hd : distance now t ≤ 2 ^ 31) : t = now := by
  have ahead : ¬Ahead now t := fun h => by simp [(reached_eq_false_iff now t).mpr h] at hr
  rw [← distance_eq_zero_iff]
  unfold Ahead at ahead
  omega

theorem withinHorizon_iff (t : Tick) : withinHorizon t = true ↔ 1 ≤ t.toNat ∧ t.toNat ≤ Config.horizon := by
  simp [withinHorizon]

theorem distance_add_self (now d : Tick) : distance now (now + d) = d.toNat := by
  unfold distance
  rw [BitVec.add_comm, BitVec.add_sub_cancel]

/-- A width, a period or a start delay counted from now leads ahead (R26). -/
theorem ahead_add {now d : Tick} (h : withinHorizon d = true) : Ahead now (now + d) := by
  obtain ⟨hlow, hhigh⟩ := (withinHorizon_iff d).mp h
  rw [Ahead, distance_add_self]
  unfold Config.horizon at hhigh
  omega

/-- The next leading due time of a pulse whose trailing due time is at most its width away (R19, R42). -/
theorem ahead_next {now lead w p : Tick} (hd : distance now (lead + w) ≤ w.toNat) (hw : w.toNat < p.toNat)
    (hp : withinHorizon p = true) : Ahead now (lead + p) := by
  obtain ⟨hlow, hhigh⟩ := (withinHorizon_iff p).mp hp
  have hn := now.isLt
  have hl := lead.isLt
  unfold Config.horizon at hhigh
  rw [distance_eq, BitVec.toNat_add] at hd
  rw [Ahead, distance_eq, BitVec.toNat_add]
  omega

/-- A lead that is reached, with its trailing due time not reached, is less than the width behind. -/
theorem backDistance_lt_width {now lead w : Tick} (hr : reached now lead = true) (hw : w.toNat ≤ Config.horizon)
    (ha : reached now (lead + w) = false) : backDistance now lead < w.toNat := by
  have hn := now.isLt
  have hl := lead.isLt
  unfold Config.horizon at hw
  rw [reached_iff, backDistance_eq] at hr
  rw [reached_eq_false_iff, Ahead, distance_eq, BitVec.toNat_add] at ha
  rw [backDistance_eq]
  omega

/-- A trailing due time that is not reached, of a lead that is, is at most the width away (R49). -/
theorem distance_le_width {now lead w : Tick} (hr : reached now lead = true) (hw : w.toNat ≤ Config.horizon)
    (ha : reached now (lead + w) = false) : distance now (lead + w) ≤ w.toNat := by
  have hn := now.isLt
  have hl := lead.isLt
  unfold Config.horizon at hw
  rw [reached_iff, backDistance_eq] at hr
  rw [reached_eq_false_iff, Ahead, distance_eq, BitVec.toNat_add] at ha
  rw [distance_eq, BitVec.toNat_add]
  omega

/-- The first grid point that is not reached lies ahead by at most the period (R30). -/
theorem ahead_gridPoint {now start p : Tick} (hr : reached now start = true) (hp : withinHorizon p = true) :
    Ahead now (start + BitVec.ofNat 32 ((backDistance now start / p.toNat + 1) * p.toNat)) := by
  obtain ⟨hlow, hhigh⟩ := (withinHorizon_iff p).mp hp
  have hn := now.isLt
  have hs := start.isLt
  unfold Config.horizon at hhigh
  rw [reached_iff] at hr
  have split := Nat.div_add_mod (backDistance now start) p.toNat
  have rest := Nat.mod_lt (backDistance now start) hlow
  have point : (backDistance now start / p.toNat + 1) * p.toNat =
      backDistance now start - backDistance now start % p.toNat + p.toNat := by
    rw [Nat.add_mul, Nat.mul_comm]
    omega
  rw [point, Ahead, distance_eq, BitVec.toNat_add, BitVec.toNat_ofNat]
  rw [backDistance_eq] at hr rest ⊢
  omega

/-- One advance of the count brings a time that lies ahead one nearer. -/
theorem distance_succ {now t : Tick} (h : 1 ≤ distance now t) : distance (now + 1) t = distance now t - 1 := by
  have hn := now.isLt
  have ht := t.isLt
  rw [distance_eq] at h
  rw [distance_eq, distance_eq, BitVec.toNat_add]
  simp only [BitVec.reduceToNat]
  omega

/-! ### The plan of a record (section 2.2) -/

theorem Plan.InRange.period {p : Plan} (h : p.InRange) {r : Repeat} (hr : p.rep = some r) :
    withinHorizon r.period = true := by
  obtain ⟨-, hrep, -, -⟩ := h
  simp only [hr, Option.all_some, Bool.and_eq_true] at hrep
  exact hrep.1

theorem Plan.InRange.width {p : Plan} (h : p.InRange) {w : Tick} (hw : p.action.width = some w) :
    withinHorizon w = true := by
  obtain ⟨hwidth, -, -, -⟩ := h
  simpa [hw] using hwidth

theorem Plan.InRange.width_lt {p : Plan} (h : p.InRange) {w : Tick} (hw : p.action.width = some w) {r : Repeat}
    (hr : p.rep = some r) : w.toNat < r.period.toNat := by
  obtain ⟨-, -, hlt, -⟩ := h
  simpa [hw, hr] using hlt

theorem Plan.InRange.delay {p : Plan} (h : p.InRange) {d : Tick} (hs : p.start = .afterDelay d) :
    withinHorizon d = true := by
  obtain ⟨-, -, -, hstart⟩ := h
  simpa [hs, Start.inRange] using hstart

@[simp] theorem Entry.account_plan (e : Entry) (ev : EntryEvent) (now : Tick) (r : Option Quantity) :
    (e.account ev now r).plan = e.plan := rfl
@[simp] theorem Entry.account_armed (e : Entry) (ev : EntryEvent) (now : Tick) (r : Option Quantity) :
    (e.account ev now r).armed = e.armed := rfl

@[simp] theorem Entry.accountMisses_plan (e : Entry) (k : Nat) (now : Tick) (r : Option Quantity) :
    (e.accountMisses k now r).plan = e.plan := by
  unfold Entry.accountMisses
  split <;> rfl

@[simp] theorem Entry.accountMisses_armed (e : Entry) (k : Nat) (now : Tick) (r : Option Quantity) :
    (e.accountMisses k now r).armed = e.armed := by
  unfold Entry.accountMisses
  split <;> rfl

/-! ### Records that fit the count -/

/-- The part of a record that `PlansOk` speaks of: its plan in range, and TRAILING on its grid (R21, R26). -/
def Entry.Planned (e : Entry) (now : Tick) : Prop := e.plan.InRange ∧ e.onGrid now = true

/-- What an operation of the Timeline leaves of a record: none, or one that is planned and whose due time, if it has one,
lies ahead. -/
def FitsTime (o : Option Entry) (now : Tick) : Prop :=
  ∀ e ∈ o, e.Planned now ∧ ∀ d ∈ e.progress.due, Ahead now d

theorem fitsTime_none (now : Tick) : FitsTime none now := by
  rintro e ⟨⟩

/-- A record without a due time. -/
theorem fitsTime_undue {e : Entry} {now : Tick} (hp : e.plan.InRange) (hd : e.progress.due = none) :
    FitsTime (some e) now := by
  rintro _ ⟨⟩
  refine ⟨⟨hp, ?_⟩, by simp [hd]⟩
  unfold Entry.onGrid
  split
  · next due lead _ _ hprogress => simp [hprogress, Progress.due] at hd
  · rfl

theorem fitsTime_pending {e : Entry} {now d : Tick} {r : Quantity} (hp : e.plan.InRange) (hd : Ahead now d) :
    FitsTime (some { e with progress := .pending d r }) now := by
  rintro _ ⟨⟩
  refine ⟨⟨hp, rfl⟩, ?_⟩
  rintro _ ⟨⟩
  exact hd

theorem fitsTime_trailing {e : Entry} {now lead w : Tick} {r : Quantity} (c : Bool) (hp : e.plan.InRange)
    (hw : e.plan.action.width = some w) (ha : Ahead now (lead + w)) (hd : distance now (lead + w) ≤ w.toNat) :
    FitsTime (some { e with progress := .trailing (lead + w) lead r c }) now := by
  rintro _ ⟨⟩
  refine ⟨⟨hp, ?_⟩, ?_⟩
  · simp [Entry.onGrid, hw, hd]
  · rintro _ ⟨⟩
    exact ha

/-- The lead, the width and the distance of a planned TRAILING record (R21). -/
theorem Entry.Planned.trailing {e : Entry} {now due lead : Tick} {r : Quantity} {c : Bool} (h : e.Planned now)
    (hp : e.progress = .trailing due lead r c) :
    ∃ w, e.plan.action.width = some w ∧ due = lead + w ∧ distance now (lead + w) ≤ w.toNat := by
  obtain ⟨-, hgrid⟩ := h
  unfold Entry.onGrid at hgrid
  rw [hp] at hgrid
  dsimp only at hgrid
  split at hgrid
  · next w hw =>
    obtain ⟨rfl, hd⟩ : due = lead + w ∧ distance now due ≤ w.toNat := by simpa using hgrid
    exact ⟨w, hw, rfl, hd⟩
  · cases hgrid

section Records

variable {e : Entry} (h : e.plan.InRange)
include h

theorem Entry.fitsTime_endLife (outcome : FinalOutcome) (now : Tick) (r : Option Quantity) :
    FitsTime (e.endLife outcome now r) now := by
  unfold Entry.endLife
  split
  · exact fitsTime_undue h rfl
  · exact fitsTime_none now

theorem Entry.fitsTime_endSeries (outcome : FinalOutcome) (now : Tick) : FitsTime (e.endSeries outcome now) now := by
  unfold Entry.endSeries
  split
  · exact fitsTime_undue h rfl
  · exact Entry.fitsTime_endLife h _ _ _

/-- An entry goes on to a due time that lies ahead, or its series ends (R40, R42, R83). -/
theorem Entry.fitsTime_goOn (r : Quantity) {due : Option Tick} (outcome : FinalOutcome) {now : Tick}
    (hd : ∀ d ∈ due, Ahead now d) : FitsTime (e.goOn r due outcome now) now := by
  unfold Entry.goOn
  split
  · next d _ => exact fitsTime_pending h (hd d rfl)
  · exact Entry.fitsTime_endSeries h _ _

/-- The next leading due time of an entry that is served at its due time (R19, R40). -/
theorem Entry.ahead_nextDue (now : Tick) : ∀ d ∈ e.plan.nextDue now, Ahead now d := by
  intro d hd
  obtain ⟨r, hr, rfl⟩ := Option.map_eq_some_iff.mp hd
  exact ahead_add (h.period hr)

theorem Entry.ahead_gridPoint {now start : Tick} (hr : reached now start = true) :
    ∀ d ∈ e.plan.gridPoint start (e.plan.catchUp (backDistance now start)), Ahead now d := by
  intro d hd
  obtain ⟨r, hrep, rfl⟩ := Option.map_eq_some_iff.mp hd
  unfold Plan.catchUp
  rw [hrep]
  exact Machine.ahead_gridPoint hr (h.period hrep)

end Records

/-- A TRAILING record whose trailing action is performed, or counted done before its time (R42, R82). -/
theorem Entry.Planned.fitsTime_afterTrailing {e : Entry} {now due lead : Tick} {r : Quantity} {c : Bool}
    (h : e.Planned now) (hp : e.progress = .trailing due lead r c) : FitsTime (e.afterTrailing lead r c now) now := by
  obtain ⟨w, hw, rfl, hd⟩ := h.trailing hp
  unfold Entry.afterTrailing
  split
  · exact Entry.fitsTime_endLife h.1 _ _ _
  · refine Entry.fitsTime_goOn h.1 r _ fun d hnext => ?_
    obtain ⟨rep, hrep, rfl⟩ := Option.map_eq_some_iff.mp hnext
    exact ahead_next hd (h.1.width_lt hw hrep) (h.1.period hrep)

/-! ### Records that are not TRAILING (R81) -/

section Untrailing

variable (e : Entry) (outcome : FinalOutcome) (now : Tick)

theorem Entry.endLife_not_trailing (r : Option Quantity) : entryState (e.endLife outcome now r) ≠ .trailing := by
  unfold Entry.endLife
  split <;> simp [entryState, Progress.state]

theorem Entry.endSeries_not_trailing : entryState (e.endSeries outcome now) ≠ .trailing := by
  unfold Entry.endSeries
  split
  · simp [entryState, Progress.state]
  · exact e.endLife_not_trailing _ _ _

theorem Entry.goOn_not_trailing (r : Quantity) (due : Option Tick) :
    entryState (e.goOn r due outcome now) ≠ .trailing := by
  unfold Entry.goOn
  split
  · simp [entryState, Progress.state]
  · exact e.endSeries_not_trailing _ _

theorem Entry.afterTrailing_not_trailing (lead : Tick) (r : Quantity) (c : Bool) :
    entryState (e.afterTrailing lead r c now) ≠ .trailing := by
  unfold Entry.afterTrailing
  split
  · exact e.endLife_not_trailing _ _ _
  · exact e.goOn_not_trailing _ _ _ _

end Untrailing

end Sys2Proof.Machine
end

section
/-! PROOF. What the Timeline's operations do, each kind of change said once: one place is given its record, a record is
amended, the count advances, a cause is added. A chain of such changes keeps what each of them keeps. -/

namespace Sys2Proof.Machine

/-! ### Operations that give one place its record -/

/-- `t` is `s` with the record `e` at place `i` and the Due List kept. While HALTED no line is acted on and the record is
not TRAILING (R81, R83). -/
structure State.Puts (s t : State) (i : EntryIx) (e : Option Entry) : Prop where
  eq : ∃ lines, (s.halted = true → lines = s.lines) ∧ t = ({ s with lines := lines } : State).putEntry i e
  halted : s.halted = true → entryState e ≠ .trailing

theorem State.puts_putEntry (s : State) (i : EntryIx) {e : Option Entry} (h : entryState e ≠ .trailing) :
    s.Puts (s.putEntry i e) i e :=
  ⟨⟨s.lines, fun _ => rfl, rfl⟩, fun _ => h⟩

/-- While RUNNING the line of the entry may be acted on, and the entry may become TRAILING. -/
theorem State.puts_running {s : State} (h : s.halted = false) (lines : Vector OutLine 16) (i : EntryIx)
    (e : Option Entry) : s.Puts (({ s with lines := lines } : State).putEntry i e) i e :=
  ⟨⟨lines, fun hh => by simp [h] at hh, rfl⟩, fun hh => by simp [h] at hh⟩

theorem State.actTrailing_eq (s : State) (p : Plan) :
    s.actTrailing p = { s with lines := (s.actTrailing p).lines } := by
  unfold State.actTrailing
  split <;> rfl

/-- A place is given its record in the same way when its index has left the Due List before (R24). -/
theorem State.putEntry_unschedule (s : State) (i : EntryIx) (e : Option Entry) :
    (s.unschedule i).putEntry i e = s.putEntry i e := by
  have filtered : ((s.dueList.filter fun j => !(j == i)).filter fun j => !(j == i)) =
      s.dueList.filter fun j => !(j == i) := by
    simp [List.filter_filter]
  rw [State.putEntry_eq, State.putEntry_eq, State.dueOf_setEntry_self, State.dueOf_setEntry_self]
  change ((s.unschedule i).setEntry i e).setDueList _ = _
  unfold State.unschedule
  rw [State.setDueList_dueList, filtered]
  rfl

section ServeEntry

variable {s : State} {i : EntryIx} {e : Entry} (he : s.entry i = some e)
include he

theorem State.serveEntry_pending {due : Tick} {r : Quantity} (hp : e.progress = .pending due r) :
    s.serveEntry i = if s.halted then s.missDue i e due r else s.fireDue i e due r := by
  simp only [State.serveEntry, he, hp]

theorem State.serveEntry_trailing {due lead : Tick} {r : Quantity} {c : Bool}
    (hp : e.progress = .trailing due lead r c) :
    s.serveEntry i =
      (if s.halted then s else s.actTrailing e.plan).putEntry i (e.afterTrailing lead r c s.now) := by
  simp only [State.serveEntry, he, hp]

/-- An entry that is served leaves the Due List and is inserted anew, so it may as well have kept its place (R24, R39). -/
theorem State.serveEntry_unschedule (hd : e.progress.due.isSome = true) :
    (s.unschedule i).serveEntry i = s.serveEntry i := by
  have he' : (s.unschedule i).entry i = some e := he
  have hh : (s.unschedule i).halted = s.halted := rfl
  cases hp : e.progress with
  | waiting => simp [hp, Progress.due] at hd
  | retired => simp [hp, Progress.due] at hd
  | pending due r =>
    rw [State.serveEntry_pending he' hp, State.serveEntry_pending he hp, hh]
    split
    · exact s.putEntry_unschedule i _
    · unfold State.fireDue
      dsimp only
      split <;> exact (s.act _ _).putEntry_unschedule i _
  | trailing due lead r c =>
    rw [State.serveEntry_trailing he' hp, State.serveEntry_trailing he hp, hh]
    split
    · exact s.putEntry_unschedule i _
    · have acted : (s.unschedule i).actTrailing e.plan = (s.actTrailing e.plan).unschedule i := by
        unfold State.actTrailing
        split <;> rfl
      rw [acted]
      exact State.putEntry_unschedule _ i _

end ServeEntry

section Served

variable (s : State) (i : EntryIx) (e : Entry) (r : Quantity)

/-- An occurrence missed while HALTED (R83). -/
theorem State.missDue_puts (due : Tick) :
    ∃ e', s.Puts (s.missDue i e due r) i e' ∧ (e.plan.InRange → due = s.now → FitsTime e' s.now) := by
  refine ⟨_, s.puts_putEntry i (Entry.goOn_not_trailing _ _ _ _ _), ?_⟩
  rintro hrange rfl
  exact Entry.fitsTime_goOn (e := e.account _ _ _) hrange _ _ (Entry.ahead_nextDue hrange _)

/-- An occurrence performed while RUNNING (R40, R41). -/
theorem State.fireDue_puts {s : State} (hh : s.halted = false) (due : Tick) :
    ∃ e', s.Puts (s.fireDue i e due r) i e' ∧ (e.plan.InRange → due = s.now → FitsTime e' s.now) := by
  unfold State.fireDue
  dsimp only
  split
  · refine ⟨_, State.puts_running hh _ i _, ?_⟩
    rintro hrange rfl
    exact Entry.fitsTime_goOn (e := e.account _ _ _) hrange _ _ (Entry.ahead_nextDue hrange _)
  · next w hw =>
    refine ⟨_, State.puts_running hh _ i _, ?_⟩
    rintro hrange rfl
    exact fitsTime_trailing (e := e.account _ _ _) false hrange hw (ahead_add (hrange.width hw))
      (distance_add_self _ _).le

end Served

/-- What serving an entry with a due time makes of it: a record in place of the one before, which fits the count when the
due time is the count (R39, R40, R42, R83). -/
theorem State.serveEntry_puts {s : State} {i : EntryIx} {e : Entry} (he : s.entry i = some e)
    (hd : e.progress.due.isSome = true) :
    ∃ e', s.Puts (s.serveEntry i) i e' ∧
      (e.Planned s.now → e.progress.due = some s.now → FitsTime e' s.now) := by
  cases hp : e.progress with
  | waiting => simp [hp, Progress.due] at hd
  | retired => simp [hp, Progress.due] at hd
  | pending due r =>
    have served : ∃ e', s.Puts (s.serveEntry i) i e' ∧ (e.plan.InRange → due = s.now → FitsTime e' s.now) := by
      rw [State.serveEntry_pending he hp]
      split
      · exact s.missDue_puts i e r due
      · next hh => exact State.fireDue_puts i e r (by simpa using hh) due
    obtain ⟨e', hputs, hfits⟩ := served
    exact ⟨e', hputs, fun hplanned hdue => hfits hplanned.1 (Option.some_injective _ hdue)⟩
  | trailing due lead r c =>
    refine ⟨e.afterTrailing lead r c s.now, ?_, fun hplanned _ => hplanned.fitsTime_afterTrailing hp⟩
    rw [State.serveEntry_trailing he hp]
    split
    · exact s.puts_putEntry i (Entry.afterTrailing_not_trailing _ _ _ _ _)
    · next hh =>
      rw [s.actTrailing_eq e.plan]
      exact State.puts_running (by simpa using hh) _ i _

/-- A series that begins late (R31, R32, R49). -/
theorem State.beginLate_puts {s : State} (hh : s.halted = false) (i : EntryIx) (e : Entry) (start : Tick) (late : Bool) :
    ∃ e', s.Puts (s.beginLate i e start late) i e' ∧
      (e.plan.InRange → reached s.now start = true → FitsTime e' s.now) := by
  have goesOn : ∀ (e' : Entry) (left : Quantity) (o : FinalOutcome), e'.plan = e.plan → e.plan.InRange →
      reached s.now start = true →
        FitsTime (e'.goOn left (e.plan.gridPoint start (e.plan.catchUp (backDistance s.now start))) o s.now) s.now := by
    intro e' left o hplan hrange hr
    refine Entry.fitsTime_goOn (hplan ▸ hrange) left o fun d hd => ?_
    exact Entry.ahead_gridPoint hrange hr d hd
  unfold State.beginLate
  dsimp only
  split
  · exact ⟨_, State.puts_running hh _ i _, goesOn _ _ _ (by simp)⟩
  · next w hw =>
    split
    · rw [(s.act _ _).actTrailing_eq]
      exact ⟨_, State.puts_running hh _ i _, goesOn _ _ _ (by simp)⟩
    · next ahead =>
      refine ⟨_, State.puts_running hh _ i _, fun hrange hr => ?_⟩
      have unreached : reached s.now (start + w) = false := by simpa using ahead
      have width := (withinHorizon_iff w).mp (hrange.width hw)
      exact fitsTime_trailing false (by simpa using hrange) (by simpa using hw)
        ((reached_eq_false_iff _ _).mp unreached) (distance_le_width hr width.2 unreached)

/-- A late start while HALTED (R33). -/
theorem State.beginMissed_puts (s : State) (i : EntryIx) (e : Entry) (start : Tick) :
    ∃ e', s.Puts (s.beginMissed i e start) i e' ∧
      (e.plan.InRange → reached s.now start = true → FitsTime e' s.now) := by
  refine ⟨_, s.puts_putEntry i (Entry.goOn_not_trailing _ _ _ _ _), fun hrange hr => ?_⟩
  refine Entry.fitsTime_goOn (by simpa using hrange) _ _ fun d hd => ?_
  exact Entry.ahead_gridPoint hrange hr d hd

/-- A request that has passed the checks of PLACE (R28 to R34). -/
theorem State.placeAt_puts (s : State) (i : EntryIx) {p : Plan} (hp : p.InRange) :
    ∃ e', s.Puts (s.placeAt i p).2 i e' ∧ FitsTime e' s.now := by
  unfold State.placeAt
  split
  · exact ⟨_, s.puts_putEntry i (by simp [entryState, Progress.state, Plan.newEntry]), fitsTime_undue hp rfl⟩
  · next d hs =>
    exact ⟨_, s.puts_putEntry i (by simp [entryState, Progress.state, Plan.newEntry]),
      fitsTime_pending (e := p.newEntry .waiting) hp (ahead_add (hp.delay hs))⟩
  · next t late hs =>
    split
    · next hr =>
      dsimp only
      split
      · obtain ⟨e', hputs, hfits⟩ := s.beginMissed_puts i (p.newEntry .waiting) t
        exact ⟨e', hputs, hfits hp hr⟩
      · next hh =>
        obtain ⟨e', hputs, hfits⟩ := State.beginLate_puts (by simpa using hh) i (p.newEntry .waiting) t true
        exact ⟨e', hputs, hfits hp hr⟩
    · next hr =>
      exact ⟨_, s.puts_putEntry i (by simp [entryState, Progress.state, Plan.newEntry]),
        fitsTime_pending (e := p.newEntry .waiting) hp ((reached_eq_false_iff _ _).mp (by simpa using hr))⟩

/-- A WAITING entry served by a trigger while RUNNING (R48, R49). -/
theorem State.serveTrigger_puts {s : State} (hh : s.halted = false) (i : EntryIx) (e : Entry) (delay stamp : Tick) :
    ∃ e', s.Puts (s.serveTrigger i e delay stamp) i e' ∧ (e.plan.InRange → FitsTime e' s.now) := by
  unfold State.serveTrigger
  dsimp only
  split
  · next hr =>
    obtain ⟨e', hputs, hfits⟩ := State.beginLate_puts hh i e.useArm (stamp + delay) (decide (0 < delay.toNat))
    exact ⟨e', hputs, fun hrange => hfits hrange hr⟩
  · next hr =>
    refine ⟨_, s.puts_putEntry i (by simp [entryState, Progress.state]), fun hrange => ?_⟩
    exact fitsTime_pending (e := e.useArm) hrange ((reached_eq_false_iff _ _).mp (by simpa using hr))

/-! ### What the Timeline and the Output Stage work on -/

/-- The count, the entries, the Due List, the lines and the halt causes stand as they did. -/
structure SameTimeline (s t : State) : Prop where
  count : t.timebase.count = s.timebase.count
  entries : t.entries = s.entries
  dueList : t.dueList = s.dueList
  lines : t.lines = s.lines
  causes : t.halt.causes = s.halt.causes

/-- `e` may stand at `i` for the record there with the Due List left alone: the due time is the same one, a record that was
planned is so again, and an entry is TRAILING only when it was. -/
structure State.Amends (s : State) (i : EntryIx) (e : Option Entry) : Prop where
  due : (e.bind fun r => r.progress.due) = s.dueOf i
  trailing : entryState e = .trailing → entryState (s.entry i) = .trailing
  planned : (∀ r ∈ s.entry i, r.Planned s.now) → ∀ r ∈ e, r.Planned s.now

/-- A TIMED line's timed level is its safe level, as it is while HALTED (R68). -/
def OutLine.Settled (l : OutLine) : Prop := l.mode = .timed → l.timed = l.safe

/-- What the commands and the periods do to the count, the entries, the Due List, the lines and the halt causes, each kind
of change said once. -/
inductive TimelineMove (s : State) : State → Prop
  | same {t : State} (h : SameTimeline s t) : TimelineMove s t
  /-- An entry is placed, served by a trigger, cancelled at once, or its life ends. -/
  | put {t : State} {i : EntryIx} {e : Option Entry} (h : s.Puts t i e)
      (fits : (∀ r ∈ s.entry i, r.Planned s.now) → FitsTime e s.now) : TimelineMove s t
  /-- A notice is gathered or admitted, an arm is used, a cancel flag is set. -/
  | amend {i : EntryIx} {e : Option Entry} (h : s.Amends i e) : TimelineMove s (s.setEntry i e)
  | advance : TimelineMove s s.advance
  | cause (c : Causes) : TimelineMove s (s.addCause c)
  | resume {h : HaltUnit} (hc : h.causes = Causes.empty) : TimelineMove s (s.setHalt h)
  /-- The host sets up or writes lines. -/
  | relined (lines : Vector OutLine 16)
      (h : s.halted = true → (∀ n, (s.line n).Settled) → ∀ n : LineIx, lines[n.val].Settled) :
      TimelineMove s { s with lines := lines }
  | load (count : Tick) (h : s.anyLive = false) : TimelineMove s (s.setTimebase { s.timebase with count := count })
  /-- TIMELINE-CLEAR, or a device reset. -/
  | cleared {t : State} (he : ∀ i, t.entry i = none) (hd : t.dueList = [])
      (hh : t.halted = true → s.halted = true ∧ t.lines = s.lines) : TimelineMove s t

/-- A chain of such changes. -/
def TimelineMoves (s t : State) : Prop := Relation.ReflTransGen TimelineMove s t

theorem TimelineMoves.refl (s : State) : TimelineMoves s s := Relation.ReflTransGen.refl

/-- What every such change keeps, a chain of them keeps. -/
theorem TimelineMoves.keeps {p : State → Prop} (hp : ∀ s t, TimelineMove s t → p s → p t) {s t : State}
    (h : TimelineMoves s t) (hs : p s) : p t := by
  induction h with
  | refl => exact hs
  | tail _ move ih => exact hp _ _ move ih

section Moves

variable {o s : State} (h : TimelineMoves o s)
include h

theorem TimelineMoves.move {t : State} (m : TimelineMove s t) : TimelineMoves o t := Relation.ReflTransGen.tail h m

theorem TimelineMoves.same {t : State} (k : SameTimeline s t) : TimelineMoves o t := h.move (.same k)

theorem TimelineMoves.setLink (l : Link) : TimelineMoves o (s.setLink l) := h.same ⟨rfl, rfl, rfl, rfl, rfl⟩

theorem TimelineMoves.setReports (q : ReportQueue) : TimelineMoves o (s.setReports q) :=
  h.same ⟨rfl, rfl, rfl, rfl, rfl⟩

theorem TimelineMoves.setChannel (c : ChanIx) (ch : Channel) : TimelineMoves o (s.setChannel c ch) :=
  h.same ⟨rfl, rfl, rfl, rfl, rfl⟩

theorem TimelineMoves.setHalt {u : HaltUnit} (hc : u.causes = s.halt.causes) : TimelineMoves o (s.setHalt u) :=
  h.same ⟨rfl, rfl, rfl, rfl, hc⟩

theorem TimelineMoves.setTimebase {t : Timebase} (hc : t.count = s.timebase.count) : TimelineMoves o (s.setTimebase t) :=
  h.same ⟨hc, rfl, rfl, rfl, rfl⟩

theorem TimelineMoves.addCause (c : Causes) : TimelineMoves o (s.addCause c) := h.move (.cause c)

theorem TimelineMoves.advance : TimelineMoves o s.advance := h.move .advance

end Moves

theorem TimelineMoves.foldl {α : Type} {f : State → α → State}
    (hf : ∀ {o u : State} (a : α), TimelineMoves o u → TimelineMoves o (f u a)) (l : List α) {o s : State}
    (h : TimelineMoves o s) : TimelineMoves o (l.foldl f s) := by
  induction l generalizing s with
  | nil => exact h
  | cons a l ih => exact ih (hf a h)

/-! ### The Timeline's operations -/

/-- A record with the same plan and the same progress. -/
theorem State.amends_notice {s : State} {i : EntryIx} {e e' : Entry} (he : s.entry i = some e) (hp : e'.plan = e.plan)
    (hq : e'.progress = e.progress) : s.Amends i (some e') := by
  refine ⟨?_, ?_, ?_⟩
  · simp [State.dueOf, he, hq]
  · simp [entryState, he, hq]
  · rintro h _ ⟨⟩
    obtain ⟨hrange, hgrid⟩ := h e he
    refine ⟨hp ▸ hrange, ?_⟩
    unfold Entry.onGrid at hgrid ⊢
    rwa [hq, hp]

/-- A RETIRED record that leaves the table (R46). -/
theorem State.amends_retired {s : State} {i : EntryIx} {e : Entry} (he : s.entry i = some e)
    (hq : e.progress = .retired) : s.Amends i none := by
  refine ⟨?_, by simp [entryState], ?_⟩
  · simp [State.dueOf, he, hq, Progress.due]
  · rintro - _ ⟨⟩

/-- The cancel flag of a TRAILING entry is set (R60). -/
theorem State.amends_cancelFlag {s : State} {i : EntryIx} {e : Entry} {due lead : Tick} {r : Quantity} {c : Bool}
    (he : s.entry i = some e) (hq : e.progress = .trailing due lead r c) :
    s.Amends i (some { e with progress := .trailing due lead r true }) := by
  refine ⟨?_, ?_, ?_⟩
  · simp [State.dueOf, he, hq, Progress.due]
  · simp [entryState, he, hq, Progress.state]
  · rintro h _ ⟨⟩
    obtain ⟨hrange, hgrid⟩ := h e he
    refine ⟨hrange, ?_⟩
    unfold Entry.onGrid at hgrid ⊢
    rwa [hq] at hgrid

/-- The life of the entry at a place ends (R44, R59). -/
theorem TimelineMove.endLife {s : State} {i : EntryIx} {e e' : Entry} (he : s.entry i = some e) (hp : e'.plan = e.plan)
    (outcome : FinalOutcome) (r : Option Quantity) : TimelineMove s (s.putEntry i (e'.endLife outcome s.now r)) := by
  refine .put (s.puts_putEntry i (Entry.endLife_not_trailing _ _ _ _)) fun h => ?_
  exact Entry.fitsTime_endLife (hp ▸ (h e he).1) _ _ _

section Timeline

variable {o s : State} (h : TimelineMoves o s)
include h

theorem TimelineMoves.cancelEntry (i : EntryIx) : TimelineMoves o (s.cancelEntry i) := by
  unfold State.cancelEntry
  split
  · exact h
  · next e he =>
    split
    · exact h.move (.endLife he rfl _ _)
    · exact h.move (.endLife he rfl _ _)
    · next hq => exact h.move (.amend (State.amends_cancelFlag he hq))
    · exact h

theorem TimelineMoves.missTrigger {i : EntryIx} {e : Entry} (he : s.entry i = some e) :
    TimelineMoves o (s.missTrigger i e) := by
  unfold State.missTrigger
  dsimp only
  split
  · exact h.move (.amend (State.amends_notice he rfl rfl))
  · exact h.move (.endLife (e' := e.useArm.account _ _ _) he rfl _ _)

theorem TimelineMoves.serveTrigger (hh : s.halted = false) {i : EntryIx} {e : Entry} (he : s.entry i = some e)
    (delay stamp : Tick) : TimelineMoves o (s.serveTrigger i e delay stamp) := by
  obtain ⟨e', hputs, hfits⟩ := State.serveTrigger_puts hh i e delay stamp
  exact h.move (.put hputs fun planned => hfits (planned e he).1)

theorem TimelineMoves.offerEdge (c : ChanIx) (edge : Edge) (stamp : Tick) (i : EntryIx) :
    TimelineMoves o (State.offerEdge c edge stamp s i) := by
  unfold State.offerEdge
  split
  · exact h
  · next e he =>
    have overrun : ∀ r, TimelineMoves o (s.setEntry i (some (e.account .overrun s.now r))) :=
      fun r => h.move (.amend (State.amends_notice he rfl rfl))
    split
    · split
      · split
        · split
          · exact h.missTrigger he
          · next hh => exact h.serveTrigger (by simpa using hh) he _ _
        · exact overrun _
        · exact overrun _
        · exact h
      · exact h
    · exact h

theorem TimelineMoves.offerTrigger (c : ChanIx) (edge : Edge) (stamp : Tick) :
    TimelineMoves o (s.offerTrigger c edge stamp) := by
  unfold State.offerTrigger
  split
  · exact TimelineMoves.foldl (fun i hu => hu.offerEdge c edge stamp i) _ h
  · exact h

theorem TimelineMoves.placeAt (i : EntryIx) {p : Plan} (hp : p.InRange) : TimelineMoves o (s.placeAt i p).2 := by
  obtain ⟨e', hputs, hfits⟩ := s.placeAt_puts i hp
  exact h.move (.put hputs fun _ => hfits)

/-- An entry notice is admitted: its slot is emptied, and a RETIRED entry leaves the table (R46, R55). -/
theorem TimelineMoves.admitEntry (i : EntryIx) : TimelineMoves o (s.admitEntry i) := by
  unfold State.admitEntry
  split
  · next e he =>
    split
    · refine TimelineMoves.setReports (h.move (.amend ?_)) _
      split
      · next hq => exact State.amends_retired he hq
      · exact State.amends_notice he rfl rfl
    · exact h
  · exact h

end Timeline

end Sys2Proof.Machine
end

section
/-! PROOF. What each change keeps: the Due List's members (R23), the lines and the entries while HALTED (R68, R81), and the
order of the Due List with every due time ahead (R23, R24, R39). -/

namespace Sys2Proof.Machine

/-! ### The Due List's members (R23) -/

theorem State.Puts.entry {s t : State} {i : EntryIx} {e : Option Entry} (h : s.Puts t i e) (j : EntryIx) :
    t.entry j = if i = j then e else s.entry j := by
  obtain ⟨lines, -, rfl⟩ := h.eq
  exact State.entry_putEntry _ i j e

theorem State.Puts.halt {s t : State} {i : EntryIx} {e : Option Entry} (h : s.Puts t i e) : t.halt = s.halt := by
  obtain ⟨lines, -, rfl⟩ := h.eq
  exact State.putEntry_halt _ i e

theorem State.Puts.lines {s t : State} {i : EntryIx} {e : Option Entry} (h : s.Puts t i e) (hh : s.halted = true) :
    t.lines = s.lines := by
  obtain ⟨lines, hl, rfl⟩ := h.eq
  exact (State.putEntry_lines _ i e).trans (hl hh)

theorem State.Puts.dueListOk {s t : State} {i : EntryIx} {e : Option Entry} (h : s.Puts t i e) (hs : DueListOk s) :
    DueListOk t := by
  obtain ⟨lines, -, rfl⟩ := h.eq
  exact dueListOk_put (dueListOk_congr (s := s) (t := { s with lines := lines }) rfl rfl hs) i e

theorem State.Amends.dueOf {s : State} {i : EntryIx} {e : Option Entry} (h : s.Amends i e) (j : EntryIx) :
    (s.setEntry i e).dueOf j = s.dueOf j := by
  by_cases hij : i = j
  · subst hij
    rw [State.dueOf_setEntry_self, h.due]
  · exact State.dueOf_setEntry_ne s hij e

theorem State.Amends.dueListOk {s : State} {i : EntryIx} {e : Option Entry} (h : s.Amends i e) (hs : DueListOk s) :
    DueListOk (s.setEntry i e) := by
  refine ⟨hs.1, fun j => ?_⟩
  rw [h.dueOf j]
  exact hs.2 j

/-- An entry on the Due List is served as one that keeps its place until it is dealt with (R24, R39). -/
theorem DueListOk.serveEntry_puts {s : State} (h : DueListOk s) {i : EntryIx} (hi : i ∈ s.dueList) :
    ∃ e e', s.entry i = some e ∧ s.Puts ((s.unschedule i).serveEntry i) i e' ∧
      (e.Planned s.now → s.dueOf i = some s.now → FitsTime e' s.now) := by
  have due := (h.2 i).mp hi
  unfold State.dueOf at due ⊢
  cases he : s.entry i with
  | none => simp [he] at due
  | some e =>
    rw [he] at due
    obtain ⟨e', hputs, hfits⟩ := State.serveEntry_puts he due
    exact ⟨e, e', rfl, (State.serveEntry_unschedule he due).symm ▸ hputs, hfits⟩

theorem dueListOk_serveDue (n : Nat) {s : State} (h : DueListOk s) : DueListOk (State.serveDue n s) := by
  induction n generalizing s with
  | zero => exact h
  | succ n ih =>
    unfold State.serveDue
    split
    · exact h
    · next i rest hl =>
      split
      · obtain ⟨e, e', -, hputs, -⟩ := h.serveEntry_puts (i := i) (by simp [hl])
        exact ih (hputs.dueListOk h)
      · exact h

theorem dueListOk_cleared {s : State} (he : ∀ i, s.entry i = none) (hd : s.dueList = []) : DueListOk s := by
  refine ⟨by simp [hd], fun i => ?_⟩
  simp [hd, State.dueOf, he]

theorem TimelineMove.dueListOk {s t : State} (m : TimelineMove s t) (h : DueListOk s) : DueListOk t := by
  cases m with
  | same k => exact dueListOk_congr k.entries k.dueList h
  | put k => exact k.dueListOk h
  | amend k => exact k.dueListOk h
  | advance => exact dueListOk_serveDue _ (dueListOk_congr (s := s) rfl rfl h)
  | cause c => exact dueListOk_addCause h c
  | resume => exact dueListOk_congr rfl rfl h
  | relined => exact dueListOk_congr (s := s) rfl rfl h
  | load => exact dueListOk_congr (s := s) rfl rfl h
  | cleared he hd => exact dueListOk_cleared he hd

/-! ### While HALTED (R68, R81) -/

theorem State.halted_congr {s t : State} (h : t.halt.causes = s.halt.causes) : t.halted = s.halted := by
  unfold State.halted
  rw [h]

theorem State.line_congr {s t : State} (h : t.lines = s.lines) (n : LineIx) : t.line n = s.line n := by
  unfold State.line
  rw [h]

theorem State.entry_congr {s t : State} (h : t.entries = s.entries) (i : EntryIx) : t.entry i = s.entry i := by
  unfold State.entry
  rw [h]

theorem State.Puts.haltOk {s t : State} {i : EntryIx} {e : Option Entry} (h : s.Puts t i e) (hs : HaltOk s) :
    HaltOk t := by
  intro hh
  rw [State.halted_congr (s := s) (by rw [h.halt])] at hh
  obtain ⟨untrailing, settled⟩ := hs hh
  refine ⟨fun j => ?_, fun n => ?_⟩
  · rw [h.entry]
    split
    · exact h.halted hh
    · exact untrailing j
  · rw [State.line_congr (h.lines hh)]
    exact settled n

theorem State.Amends.haltOk {s : State} {i : EntryIx} {e : Option Entry} (h : s.Amends i e) (hs : HaltOk s) :
    HaltOk (s.setEntry i e) := by
  intro hh
  obtain ⟨untrailing, settled⟩ := hs hh
  refine ⟨fun j => ?_, settled⟩
  rw [State.entry_setEntry]
  split
  · exact fun ht => untrailing i (h.trailing ht)
  · exact untrailing j

theorem haltOk_congr {s t : State} (he : t.entries = s.entries) (hl : t.lines = s.lines)
    (hc : t.halt.causes = s.halt.causes) (h : HaltOk s) : HaltOk t := by
  intro hh
  rw [State.halted_congr hc] at hh
  obtain ⟨untrailing, settled⟩ := h hh
  exact ⟨fun i => by rw [State.entry_congr he]; exact untrailing i, fun n => by
    rw [State.line_congr hl]; exact settled n⟩

theorem haltOk_serveDue (n : Nat) {s : State} (hd : DueListOk s) (h : HaltOk s) : HaltOk (State.serveDue n s) := by
  induction n generalizing s with
  | zero => exact h
  | succ n ih =>
    unfold State.serveDue
    split
    · exact h
    · next i rest hl =>
      split
      · obtain ⟨e, e', -, hputs, -⟩ := hd.serveEntry_puts (i := i) (by simp [hl])
        exact ih (hputs.dueListOk hd) (hputs.haltOk h)
      · exact h

/-- The trailing action of a TRAILING entry is counted done, and every other entry is left alone (R82). -/
theorem State.countTrailingDone_cases (s : State) (i : EntryIx) :
    (s.countTrailingDone i = s ∧ entryState (s.entry i) ≠ .trailing) ∨
      ∃ e e', s.entry i = some e ∧ s.countTrailingDone i = s.putEntry i e' ∧ entryState e' ≠ .trailing ∧
        (e.Planned s.now → FitsTime e' s.now) := by
  unfold State.countTrailingDone
  cases he : s.entry i with
  | none => exact .inl ⟨rfl, by simp [entryState]⟩
  | some e =>
    cases hp : e.progress with
    | trailing due lead r c =>
      exact .inr ⟨e, _, rfl, by simp only [hp], Entry.afterTrailing_not_trailing _ _ _ _ _,
        fun h => h.fitsTime_afterTrailing hp⟩
    | waiting => exact .inl ⟨by simp only [hp], by simp [entryState, hp, Progress.state]⟩
    | pending due r => exact .inl ⟨by simp only [hp], by simp [entryState, hp, Progress.state]⟩
    | retired => exact .inl ⟨by simp only [hp], by simp [entryState, hp, Progress.state]⟩

theorem State.countTrailingDone_trailing {s : State} {i j : EntryIx}
    (h : entryState ((s.countTrailingDone i).entry j) = .trailing) :
    j ≠ i ∧ entryState (s.entry j) = .trailing := by
  rcases s.countTrailingDone_cases i with ⟨heq, hi⟩ | ⟨e, e', -, heq, hi, -⟩
  · rw [heq] at h
    exact ⟨fun hji => hi (hji ▸ h), h⟩
  · rw [heq, State.entry_putEntry] at h
    split at h
    · exact absurd h hi
    · next hij => exact ⟨fun hji => hij hji.symm, h⟩

/-- An entry still TRAILING was TRAILING before and was not dealt with. -/
theorem State.foldl_countTrailingDone_trailing (l : List EntryIx) {s : State} {j : EntryIx}
    (h : entryState ((l.foldl State.countTrailingDone s).entry j) = .trailing) :
    j ∉ l ∧ entryState (s.entry j) = .trailing := by
  induction l generalizing s with
  | nil => exact ⟨List.not_mem_nil, h⟩
  | cons i l ih =>
    obtain ⟨hl, ht⟩ := ih h
    obtain ⟨hne, hs⟩ := State.countTrailingDone_trailing ht
    exact ⟨by simp [hne, hl], hs⟩

theorem State.foldl_countTrailingDone_lines (l : List EntryIx) (s : State) :
    (l.foldl State.countTrailingDone s).lines = s.lines := by
  induction l generalizing s with
  | nil => rfl
  | cons i l ih =>
    rw [List.foldl_cons, ih]
    rcases s.countTrailingDone_cases i with ⟨heq, -⟩ | ⟨e, e', -, heq, -, -⟩ <;> rw [heq]
    exact State.putEntry_lines _ _ _

theorem OutLine.forceSafe_settled (l : OutLine) : l.forceSafe.Settled := by
  unfold OutLine.forceSafe OutLine.Settled
  split
  · simp
  · next hm => simp [hm]

/-- A TRAILING entry has a due time, so it is on the Due List and its trailing action is counted done (R81, R82). -/
theorem haltOk_enterHalted {s : State} (h : DueListOk s) : HaltOk s.enterHalted := by
  intro _
  refine ⟨fun i ht => ?_, fun n => ?_⟩
  · obtain ⟨hi, hs⟩ := State.foldl_countTrailingDone_trailing _ ht
    apply hi
    refine (h.2 i).mpr ?_
    change entryState (s.entry i) = .trailing at hs
    unfold State.dueOf
    cases he : s.entry i with
    | none => simp [he, entryState] at hs
    | some e => cases hp : e.progress <;> simp_all [entryState, Progress.state, Progress.due]
  · have forced : s.enterHalted.line n = (s.line n).forceSafe := by
      rw [State.line_congr (t := s.enterHalted) (State.foldl_countTrailingDone_lines _ _)]
      simp [State.line]
    rw [forced]
    exact OutLine.forceSafe_settled _

theorem haltOk_addCause {s : State} (hd : DueListOk s) (h : HaltOk s) (c : Causes) : HaltOk (s.addCause c) := by
  rcases s.addCause_cases c with ⟨-, e⟩ | ⟨-, hh, e⟩ | ⟨-, -, e⟩ <;> rw [e]
  · exact h
  · exact fun _ => h hh
  · exact haltOk_enterHalted (dueListOk_congr (s := s) rfl rfl hd)

theorem TimelineMove.haltOk {s t : State} (m : TimelineMove s t) (hd : DueListOk s) (h : HaltOk s) : HaltOk t := by
  cases m with
  | same k => exact haltOk_congr k.entries k.lines k.causes h
  | put k => exact k.haltOk h
  | amend k => exact k.haltOk h
  | advance => exact haltOk_serveDue _ (dueListOk_congr (s := s) rfl rfl hd) (haltOk_congr (s := s) rfl rfl rfl h)
  | cause c => exact haltOk_addCause hd h c
  | resume hc => intro hh; simp [State.halted, hc, Causes.empty, Causes.any] at hh
  | relined lines k => exact fun hh => ⟨(h hh).1, k hh (h hh).2⟩
  | load => exact haltOk_congr (s := s) rfl rfl rfl h
  | cleared he _ hh =>
    intro ht
    obtain ⟨hs, hl⟩ := hh ht
    exact ⟨fun i => by simp [he, entryState], fun n => by rw [State.line_congr hl]; exact (h hs).2 n⟩

/-! ### The Due List in order (R23, R24) -/

/-- The indices on the Due List whose due time is the count. -/
def State.dueNow (s : State) : List EntryIx := s.dueList.filter fun i => decide (s.dueDistance i = 0)

/-- The list is ordered, its due times at most half the range of the count away, with at most `n` of them still to be
served at the count: `n` is 0 between steps, and the number of heads to be taken in the middle of an advance (R39). -/
structure State.Scheduled (n : Nat) (s : State) : Prop where
  listed : DueListOk s
  planned : ∀ i, ∀ e ∈ s.entry i, e.Planned s.now
  sorted : s.dueList.Pairwise fun i j => s.dueDistance i ≤ s.dueDistance j
  near : ∀ i ∈ s.dueList, s.dueDistance i ≤ 2 ^ 31
  due : s.dueNow.length ≤ n

theorem State.scheduled_iff (s : State) : s.Scheduled 0 ↔ DueListOk s ∧ PlansOk s ∧ DueOrderOk s := by
  constructor
  · rintro ⟨hl, hp, hs, hn, hd⟩
    have unserved : s.dueNow = [] := List.length_eq_zero_iff.mp (Nat.le_zero.mp hd)
    refine ⟨hl, hp, hs, fun i hi => ⟨?_, hn i hi⟩⟩
    have ahead := List.filter_eq_nil_iff.mp unserved i hi
    simp only [decide_eq_true_eq] at ahead
    omega
  · rintro ⟨hl, hp, hs, ha⟩
    refine ⟨hl, hp, hs, fun i hi => (ha i hi).2, ?_⟩
    have unserved : s.dueNow = [] := List.filter_eq_nil_iff.mpr fun i hi => by
      have := (ha i hi).1
      simp only [decide_eq_true_eq]
      omega
    simp [unserved]

/-- The condition looks at the count, the entries and the Due List alone. -/
theorem State.Scheduled.congr {n : Nat} {s t : State} (h : s.Scheduled n) (hc : t.timebase.count = s.timebase.count)
    (he : t.entries = s.entries) (hd : t.dueList = s.dueList) : t.Scheduled n := by
  have entry : ∀ i, t.entry i = s.entry i := State.entry_congr he
  have dist : t.dueDistance = s.dueDistance := funext fun i => State.dueDistance_congr hc (entry i)
  obtain ⟨hl, hp, hs, hn, hdue⟩ := h
  refine ⟨dueListOk_congr he hd hl, fun i => ?_, ?_, ?_, ?_⟩
  · rw [entry i]
    change ∀ e ∈ s.entry i, e.Planned t.timebase.count
    rw [hc]
    exact hp i
  · rwa [dist, hd]
  · rwa [dist, hd]
  · unfold State.dueNow
    rwa [dist, hd]

theorem State.dueDistance_eq {s : State} {i : EntryIx} {d : Tick} (h : s.dueOf i = some d) :
    s.dueDistance i = distance s.now d := by
  unfold State.dueDistance
  rw [h]

/-- An index that fails a test is inserted without the indices that pass it being moved. -/
theorem filter_insertDue (dist : EntryIx → Nat) {p : EntryIx → Bool} {i : EntryIx} (hi : p i = false)
    (l : List EntryIx) : (insertDue dist i l).filter p = l.filter p := by
  obtain ⟨front, back, rfl, hinsert, -, -⟩ := insertDue_split dist i l
  rw [hinsert]
  simp [hi]

theorem State.putEntry_dueList (s : State) (i : EntryIx) (e : Option Entry) :
    (s.putEntry i e).dueList =
      if (e.bind fun r => r.progress.due).isSome then
        insertDue (s.putEntry i e).dueDistance i (s.dueList.filter fun j => !(j == i))
      else s.dueList.filter fun j => !(j == i) := by
  rw [State.putEntry_eq, State.dueOf_setEntry_self]
  rfl

theorem State.dueDistance_putEntry_ne (s : State) {i j : EntryIx} (h : i ≠ j) (e : Option Entry) :
    (s.putEntry i e).dueDistance j = s.dueDistance j :=
  State.dueDistance_congr (by rw [State.putEntry_timebase]) (by rw [State.entry_putEntry, if_neg h])

theorem State.dueOf_putEntry_self (s : State) (i : EntryIx) (e : Option Entry) :
    (s.putEntry i e).dueOf i = e.bind fun r => r.progress.due := by
  rw [← State.dueOf_setEntry_self s i e]
  exact State.dueOf_congr (by rw [State.entry_putEntry, if_pos rfl, State.entry_setEntry_self])

section PutEntry

variable {s : State} {i : EntryIx} {e : Option Entry} (he : FitsTime e s.now)
include he

/-- The due time of a record that fits the count lies ahead. -/
theorem State.ahead_putEntry (hd : (e.bind fun r => r.progress.due).isSome = true) :
    1 ≤ (s.putEntry i e).dueDistance i ∧ (s.putEntry i e).dueDistance i ≤ 2 ^ 31 := by
  obtain ⟨d, hd⟩ := Option.isSome_iff_exists.mp hd
  obtain ⟨r, rfl, hr⟩ := Option.bind_eq_some_iff.mp hd
  rw [State.dueDistance_eq ((State.dueOf_putEntry_self s i _).trans hd), State.now, State.putEntry_timebase]
  exact (he r rfl).2 d hr

/-- An entry that fits the count is not one to be served at it. -/
theorem State.dueNow_putEntry : (s.putEntry i e).dueNow = s.dueNow.filter fun j => !(j == i) := by
  have others : ((s.dueList.filter fun j => !(j == i)).filter fun j => decide ((s.putEntry i e).dueDistance j = 0)) =
      s.dueNow.filter fun j => !(j == i) := by
    unfold State.dueNow
    rw [List.filter_comm]
    simp only [List.filter_filter]
    refine List.filter_congr fun j _ => ?_
    by_cases hij : i = j
    · simp [hij]
    · rw [State.dueDistance_putEntry_ne s hij]
  rw [← others, State.dueNow, State.putEntry_dueList]
  split
  · next hd =>
    have ahead := State.ahead_putEntry (i := i) he hd
    exact filter_insertDue _ (by simpa using Nat.one_le_iff_ne_zero.mp ahead.1) _
  · rfl

/-- A record that fits the count takes its place: the others keep their order, and it stands behind every one as near. -/
theorem State.Scheduled.putEntry {n m : Nat} (h : s.Scheduled n)
    (hm : (s.dueNow.filter fun j => !(j == i)).length ≤ m) : (s.putEntry i e).Scheduled m := by
  refine ⟨dueListOk_put h.listed i e, fun j r hr => ?_, ?_, fun j hj => ?_, ?_⟩
  · rw [State.now, State.putEntry_timebase]
    rw [State.entry_putEntry] at hr
    split at hr
    · exact (he r hr).1
    · exact h.planned j r hr
  · have rest : (s.dueList.filter fun j => !(j == i)).Pairwise
        fun a b => (s.putEntry i e).dueDistance a ≤ (s.putEntry i e).dueDistance b := by
      refine (h.sorted.filter _).imp_of_mem fun {a b} ha hb hab => ?_
      have hia : i ≠ a := fun hia => by simp [hia] at ha
      have hib : i ≠ b := fun hib => by simp [hib] at hb
      rwa [State.dueDistance_putEntry_ne s hia, State.dueDistance_putEntry_ne s hib]
    rw [State.putEntry_dueList]
    split
    · exact pairwise_insertDue _ i rest
    · exact rest
  · rw [State.mem_dueList_putEntry] at hj
    split at hj
    · next hji => exact hji ▸ (State.ahead_putEntry he hj).2
    · next hji =>
      rw [State.dueDistance_putEntry_ne s (Ne.symm hji)]
      exact h.near j hj
  · rwa [State.dueNow_putEntry he]

theorem State.Scheduled.putEntry_same {n : Nat} (h : s.Scheduled n) : (s.putEntry i e).Scheduled n :=
  h.putEntry he ((List.length_filter_le _ _).trans h.due)

end PutEntry

theorem State.Puts.scheduled {s t : State} {i : EntryIx} {e : Option Entry} (k : s.Puts t i e) (he : FitsTime e s.now)
    {n m : Nat} (h : s.Scheduled n) (hm : (s.dueNow.filter fun j => !(j == i)).length ≤ m) : t.Scheduled m := by
  obtain ⟨lines, -, rfl⟩ := k.eq
  exact State.Scheduled.putEntry (s := { s with lines := lines }) he (h.congr rfl rfl rfl) hm

theorem State.Scheduled.amend {n : Nat} {s : State} (h : s.Scheduled n) {i : EntryIx} {e : Option Entry}
    (k : s.Amends i e) : (s.setEntry i e).Scheduled n := by
  have dist : (s.setEntry i e).dueDistance = s.dueDistance := by
    funext j
    unfold State.dueDistance
    rw [k.dueOf j]
    rfl
  refine ⟨k.dueListOk h.listed, fun j r hr => ?_, ?_, ?_, ?_⟩
  · rw [State.entry_setEntry] at hr
    split at hr
    · exact k.planned (h.planned i) r hr
    · exact h.planned j r hr
  · rw [dist]; exact h.sorted
  · rw [dist]; exact h.near
  · unfold State.dueNow
    rw [dist]
    exact h.due

theorem State.scheduled_cleared {s : State} (he : ∀ i, s.entry i = none) (hd : s.dueList = []) : s.Scheduled 0 := by
  refine ⟨dueListOk_cleared he hd, fun i e h => ?_, ?_, ?_, ?_⟩
  · simp [he] at h
  · simp [hd]
  · simp [hd]
  · simp [State.dueNow, hd]

/-! ### An advance (R39) -/

/-- The state with the count one further (R1). -/
def State.nextCount (s : State) : State := s.setTimebase { s.timebase with count := s.timebase.count + 1 }

theorem State.nextCount_dueDistance {s : State} {i : EntryIx} {d : Tick} (hd : s.dueOf i = some d)
    (ha : 1 ≤ s.dueDistance i) : s.nextCount.dueDistance i = s.dueDistance i - 1 := by
  rw [State.dueDistance_eq hd] at ha ⊢
  rw [State.dueDistance_eq (s := s.nextCount) hd]
  exact distance_succ ha

/-- A record whose due time lies ahead stays planned when the count goes one further: a TRAILING one is a count nearer. -/
theorem Entry.Planned.succ {e : Entry} {now : Tick} (h : e.Planned now)
    (ha : ∀ d ∈ e.progress.due, 1 ≤ distance now d) : e.Planned (now + 1) := by
  refine ⟨h.1, ?_⟩
  cases hp : e.progress with
  | trailing due lead r c =>
    obtain ⟨w, hw, rfl, hd⟩ := h.trailing hp
    have nearer := distance_succ (ha (lead + w) (by simp [hp, Progress.due]))
    simp only [Entry.onGrid, hp, hw, decide_true, Bool.true_and, decide_eq_true_eq]
    omega
  | waiting => simp [Entry.onGrid, hp]
  | pending d r => simp [Entry.onGrid, hp]
  | retired => simp [Entry.onGrid, hp]

/-- With one more advance every due time on the list is one nearer; none is passed by. -/
theorem State.Scheduled.nextCount {s : State} (h : s.Scheduled 0) : s.nextCount.Scheduled s.dueList.length := by
  obtain ⟨-, -, -, ahead⟩ := s.scheduled_iff.mp h
  have nearer : ∀ i ∈ s.dueList, s.nextCount.dueDistance i = s.dueDistance i - 1 := by
    intro i hi
    obtain ⟨d, hd⟩ := Option.isSome_iff_exists.mp ((h.listed.2 i).mp hi)
    exact State.nextCount_dueDistance hd (ahead i hi).1
  refine ⟨dueListOk_congr (s := s) rfl rfl h.listed, fun i e he => ?_, ?_, fun i hi => ?_, ?_⟩
  · refine (h.planned i e he).succ fun d hd => ?_
    have due : s.dueOf i = some d := by
      have he' : s.entry i = some e := he
      simpa [State.dueOf, he'] using hd
    have listed := (h.listed.2 i).mpr (by simp [due])
    rw [← State.dueDistance_eq due]
    exact (ahead i listed).1
  · refine h.sorted.imp_of_mem fun {a b} ha hb hab => ?_
    rw [nearer a ha, nearer b hb]
    exact Nat.sub_le_sub_right hab 1
  · rw [nearer i hi]
    exact (Nat.sub_le _ _).trans (h.near i hi)
  · exact List.length_filter_le _ _

/-- The head is reached: its due time is the count, and serving it leaves one less to be served. -/
theorem State.Scheduled.serveEntry {n : Nat} {s : State} (h : s.Scheduled (n + 1)) {i : EntryIx} (hi : i ∈ s.dueList)
    (hr : s.dueReached i = true) : ((s.unschedule i).serveEntry i).Scheduled n := by
  obtain ⟨e, e', he, hputs, hfits⟩ := h.listed.serveEntry_puts hi
  obtain ⟨d, hd⟩ := Option.isSome_iff_exists.mp ((h.listed.2 i).mp hi)
  have near := h.near i hi
  rw [State.dueDistance_eq hd] at near
  simp only [State.dueReached, hd] at hr
  obtain rfl := eq_now_of_reached hr near
  have served : i ∈ s.dueNow := List.mem_filter.mpr ⟨hi, by
    rw [State.dueDistance_eq hd]
    exact decide_eq_true (distance_eq_zero_iff.mpr rfl)⟩
  have fewer : (s.dueNow.filter fun j => !(j == i)).length < s.dueNow.length :=
    List.length_filter_lt_length_iff_exists.mpr ⟨i, served, by simp⟩
  exact hputs.scheduled (hfits (h.planned i e he) hd) h (by have := h.due; omega)

/-- A head that is not reached lies ahead, and so does every due time behind it. -/
theorem State.Scheduled.served {n : Nat} {s : State} (h : s.Scheduled n) {i : EntryIx} {rest : List EntryIx}
    (hl : s.dueList = i :: rest) (hr : s.dueReached i = false) : s.Scheduled 0 := by
  have hi : i ∈ s.dueList := by simp [hl]
  obtain ⟨d, hd⟩ := Option.isSome_iff_exists.mp ((h.listed.2 i).mp hi)
  simp only [State.dueReached, hd] at hr
  have ahead : 1 ≤ s.dueDistance i := by
    rw [State.dueDistance_eq hd]
    exact ((reached_eq_false_iff _ _).mp hr).1
  refine ⟨h.listed, h.planned, h.sorted, h.near, ?_⟩
  have sorted := h.sorted
  rw [hl, List.pairwise_cons] at sorted
  have unserved : s.dueNow = [] := by
    unfold State.dueNow
    rw [hl, List.filter_eq_nil_iff]
    intro j hj
    have farther : 1 ≤ s.dueDistance j := by
      rcases List.mem_cons.mp hj with rfl | hj
      · exact ahead
      · exact ahead.trans (sorted.1 j hj)
    simp only [decide_eq_true_eq]
    omega
  simp [unserved]

/-- The heads taken at an advance are those whose due time is the count, and every due time left lies ahead. -/
theorem State.scheduled_serveDue (n : Nat) {s : State} (h : s.Scheduled n) : (State.serveDue n s).Scheduled 0 := by
  induction n generalizing s with
  | zero => exact h
  | succ n ih =>
    unfold State.serveDue
    split
    · next hl => exact ⟨h.listed, h.planned, h.sorted, h.near, by simp [State.dueNow, hl]⟩
    · next i rest hl =>
      split
      · next hr => exact ih (h.serveEntry (by simp [hl]) hr)
      · next hr => exact h.served hl (by simpa using hr)

/-! ### The other changes -/

theorem State.Scheduled.countTrailingDone {n : Nat} {s : State} (h : s.Scheduled n) (i : EntryIx) :
    (s.countTrailingDone i).Scheduled n := by
  rcases s.countTrailingDone_cases i with ⟨heq, -⟩ | ⟨e, e', he, heq, -, hfits⟩ <;> rw [heq]
  · exact h
  · exact State.Scheduled.putEntry_same (hfits (h.planned i e he)) h

theorem State.Scheduled.enterHalted {s : State} (h : s.Scheduled 0) : s.enterHalted.Scheduled 0 := by
  have counted : ∀ (l : List EntryIx) (u : State), u.Scheduled 0 → (l.foldl State.countTrailingDone u).Scheduled 0 := by
    intro l
    induction l with
    | nil => exact fun _ hu => hu
    | cons i l ih => exact fun u hu => ih _ (hu.countTrailingDone i)
  exact counted _ _ (h.congr rfl rfl rfl)

theorem State.Scheduled.addCause {s : State} (h : s.Scheduled 0) (c : Causes) : (s.addCause c).Scheduled 0 := by
  rcases s.addCause_cases c with ⟨-, e⟩ | ⟨-, -, e⟩ | ⟨-, -, e⟩ <;> rw [e]
  · exact h
  · exact h.congr rfl rfl rfl
  · exact State.Scheduled.enterHalted (h.congr rfl rfl rfl)

/-- With no live entry there is no due time, so the count may be loaded (R10). -/
theorem State.Scheduled.load {s : State} (h : s.Scheduled 0) (hn : s.anyLive = false) (count : Tick) :
    (s.setTimebase { s.timebase with count := count }).Scheduled 0 := by
  have retired : ∀ i, ∀ e ∈ s.entry i, e.progress = .retired := by
    intro i e he
    by_contra hlive
    have := s.anyLive_iff.mpr ⟨i, e, he, hlive⟩
    simp [hn] at this
  have unlisted : s.dueList = [] := by
    refine List.eq_nil_iff_forall_not_mem.mpr fun i hi => ?_
    have due := (h.listed.2 i).mp hi
    unfold State.dueOf at due
    split at due
    · next e he => simp [retired i e he, Progress.due] at due
    · cases due
  refine ⟨dueListOk_congr (s := s) rfl rfl h.listed, fun i e he => ?_, ?_, ?_, ?_⟩
  · exact ⟨(h.planned i e he).1, by simp [Entry.onGrid, retired i e he]⟩
  · simp [unlisted]
  · simp [unlisted]
  · simp [State.dueNow, unlisted]

theorem TimelineMove.scheduled {s t : State} (m : TimelineMove s t) (h : s.Scheduled 0) : t.Scheduled 0 := by
  cases m with
  | same k => exact h.congr k.count k.entries k.dueList
  | put k fits => exact k.scheduled (fits (h.planned _)) h ((List.length_filter_le _ _).trans h.due)
  | amend k => exact h.amend k
  | advance => exact State.scheduled_serveDue s.dueList.length h.nextCount
  | cause c => exact h.addCause c
  | resume => exact h.congr rfl rfl rfl
  | relined => exact h.congr rfl rfl rfl
  | load count hn => exact h.load hn count
  | cleared he hd => exact State.scheduled_cleared he hd

end Sys2Proof.Machine
end

section
/-! PROOF. Every command and every period is a chain of the Timeline's changes, so every step keeps what they keep: the Due
List and the halt, the order of the Due List. -/

namespace Sys2Proof.Machine

/-! ### Input channels and STOP (chapters 5 and 6) -/

section Events

variable {o s : State} (h : TimelineMoves o s)
include h

theorem TimelineMoves.journal (c : ChanIx) (r : Record) : TimelineMoves o (s.journal c r) := by
  unfold State.journal
  split <;> exact h.setChannel c _

theorem TimelineMoves.captureEdge (c : ChanIx) (edge : Edge) (stamp : Tick) :
    TimelineMoves o (s.captureEdge c edge stamp) := (h.setChannel c _).journal c _

theorem TimelineMoves.distribute (c : ChanIx) (edge : Edge) (stamp : Tick) :
    TimelineMoves o (s.distribute c edge stamp) := by
  unfold State.distribute
  split
  · exact h
  · split
    · refine TimelineMoves.offerTrigger ?_ c edge stamp
      split
      · exact h.captureEdge c edge stamp
      · exact h
    · exact h
  · exact (h.setChannel c _).offerTrigger c edge stamp

theorem TimelineMoves.acceptEdge (c : ChanIx) (stamp : Tick) : TimelineMoves o (s.acceptEdge c stamp) :=
  (h.setChannel c _).distribute c _ stamp

theorem TimelineMoves.rawTransition (c : ChanIx) : TimelineMoves o (s.rawTransition c) := by
  unfold State.rawTransition
  dsimp only
  split
  · exact (h.setChannel c _).acceptEdge c _
  · exact h.setChannel c _

theorem TimelineMoves.acceptStop : TimelineMoves o s.acceptStop := by
  unfold State.acceptStop
  dsimp only
  split
  · refine TimelineMoves.setHalt ?_ rfl
    split
    · exact (h.setHalt (by rfl)).addCause _
    · exact h.setHalt rfl
  · exact h.setHalt rfl

theorem TimelineMoves.reportTimerExpires : TimelineMoves o s.reportTimerExpires := by
  unfold State.reportTimerExpires
  dsimp only
  split
  · exact h.setReports _
  · split
    · exact (h.setReports _).addCause _
    · exact h.setReports _

/-! ### The link (chapters 9 and 10) -/

theorem TimelineMoves.transmitChoice : TimelineMoves o s.transmitChoice := by
  obtain ⟨ht, he, hd, hl, hh, -⟩ := s.transmitChoice_frame
  exact h.same ⟨by rw [ht], he, hd, hl, by rw [hh]⟩

theorem TimelineMoves.offerFrame (f : Frame) : TimelineMoves o (s.offerFrame f) := by
  unfold State.offerFrame
  split <;> exact h.setLink _

theorem TimelineMoves.receive (value : Byte) (stopBit : Bool) : TimelineMoves o (s.receive value stopBit) := by
  obtain ⟨l, hl⟩ := s.receive_onlyLink value stopBit
  exact hl ▸ h.setLink l

/-! ### Device reset (sections 10.5, 10.6) -/

theorem TimelineMoves.beginReset (cause : ResetCause) : TimelineMoves o (s.beginReset cause) :=
  h.move (.cleared (by simp [State.entry, State.beginReset]) rfl (fun hh => by cases hh))

theorem TimelineMoves.afterReset (cause : ResetCause) : TimelineMoves o (s.afterReset cause) :=
  h.move (.cleared (by simp [State.entry, State.afterReset]) rfl (fun hh => by cases hh))

theorem TimelineMoves.endReset (cause : ResetCause) : TimelineMoves o (s.endReset cause) := by
  have fresh := h.afterReset cause
  unfold State.endReset
  refine TimelineMoves.transmitChoice ?_
  split
  · exact fresh.addCause _
  · exact fresh

theorem TimelineMoves.frameEnds : TimelineMoves o s.frameEnds := by
  unfold State.frameEnds
  split
  · exact h.transmitChoice
  · split
    · exact h.beginReset _
    · refine TimelineMoves.transmitChoice ?_
      split
      · exact h.setLink _
      · exact (h.setLink _).setReports _

/-! ### Admission (section 8.2) -/

theorem TimelineMoves.admitItem (item : Ready) : TimelineMoves o (s.admitItem item) := by
  cases item with
  | halt =>
    change TimelineMoves o s.admitHalt
    unfold State.admitHalt
    split
    · exact (h.setHalt (by rfl)).setReports _
    · exact h
  | entry i => exact h.admitEntry i
  | level c =>
    change TimelineMoves o (s.admitLevel c)
    unfold State.admitLevel
    split
    · exact (h.setChannel c _).setReports _
    · exact h
  | batch c => exact (h.setChannel c _).setReports _

theorem TimelineMoves.admitOne : TimelineMoves o s.admitOne := by
  unfold State.admitOne
  split
  · split
    · exact (h.admitItem _).transmitChoice
    · exact h
  · exact h

end Events

/-! ### Requests -/

/-- What a handler does to the state is a chain of the Timeline's changes. -/
def Handler.Moves (f : Handler) : Prop := ∀ (body : List Byte) (s : State), TimelineMoves s (f body s).2

theorem Handler.moves_of_reads {f : Handler} (hf : ∀ body s, (f body s).2 = s) : f.Moves := by
  intro body s
  rw [hf]
  exact .refl s

theorem moves_statusRequest : Handler.Moves statusRequest := by
  intro body s
  unfold statusRequest
  split
  · exact .refl s
  · dsimp only [accept]
    split
    · exact (TimelineMoves.refl s).setLink _
    · exact .refl s

theorem moves_restartRequest : Handler.Moves restartRequest := by
  intro body s
  unfold restartRequest
  split
  · exact .refl s
  · exact (TimelineMoves.refl s).setLink _

theorem moves_ackRequest : Handler.Moves ackRequest := by
  intro body s
  unfold ackRequest
  split
  · exact .refl s
  · split
    · exact (TimelineMoves.refl s).setReports _
    · split <;> exact .refl s

theorem moves_reportsOnRequest : Handler.Moves reportsOnRequest := by
  intro body s
  unfold reportsOnRequest
  split
  · exact .refl s
  · split
    · exact .refl s
    · exact (TimelineMoves.refl s).setReports _

theorem moves_linkSetupRequest : Handler.Moves linkSetupRequest := by
  intro body s
  unfold linkSetupRequest
  split
  · exact .refl s
  · exact (TimelineMoves.refl s).setReports _

theorem State.returnBatches_same (s : State) (reports : List Report) : SameTimeline s (s.returnBatches reports) := by
  unfold State.returnBatches
  exact ⟨rfl, rfl, rfl, rfl, rfl⟩

theorem moves_linkResetRequest : Handler.Moves linkResetRequest := by
  intro body s
  unfold linkResetRequest
  split
  · exact .refl s
  · have returned := (TimelineMoves.refl s).same (s.returnBatches_same s.reports.reports)
    exact (returned.setReports _).setLink _

theorem moves_timeSetupRequest : Handler.Moves timeSetupRequest := by
  intro body s
  unfold timeSetupRequest
  split
  · exact .refl s
  · split
    · exact .refl s
    · exact (TimelineMoves.refl s).setTimebase rfl

/-- The count is loaded only with no live entry on the table (R10). -/
theorem moves_timeSetRequest : Handler.Moves timeSetRequest := by
  intro body s
  unfold timeSetRequest
  split
  · exact .refl s
  · next count _ =>
    split
    · exact .refl s
    · next hn =>
      have unheld : s.anyLive = false := by
        simp only [Bool.or_eq_true, not_or, Bool.not_eq_true] at hn
        exact hn.2
      have loaded := (TimelineMoves.refl s).move (.load count unheld)
      exact loaded.same ⟨rfl, rfl, rfl, rfl, rfl⟩

theorem moves_timeRunRequest : Handler.Moves timeRunRequest := by
  intro body s
  unfold timeRunRequest
  split
  · exact .refl s
  · split
    · exact .refl s
    · exact (TimelineMoves.refl s).same ⟨rfl, rfl, rfl, rfl, rfl⟩

theorem moves_timeStopRequest : Handler.Moves timeStopRequest := by
  intro body s
  unfold timeStopRequest
  split
  · exact .refl s
  · split
    · exact (TimelineMoves.refl s).setTimebase rfl
    · exact .refl s

/-- Only a plan in range is placed (R26). -/
theorem moves_placeRequest : Handler.Moves placeRequest := by
  intro body s
  unfold placeRequest
  split
  · exact .refl s
  · next p hp =>
    have range := ((readPlace_iff body p).mp hp).1
    split
    · exact .refl s
    · split
      · exact .refl s
      · split
        · exact .refl s
        · split
          · exact .refl s
          · exact (TimelineMoves.refl s).placeAt _ range

theorem moves_cancelRequest : Handler.Moves cancelRequest := by
  intro body s
  unfold cancelRequest
  split
  · exact .refl s
  · dsimp only
    split
    · exact .refl s
    · exact TimelineMoves.foldl (fun i hu => hu.cancelEntry i) _ (.refl s)

theorem State.halt_clearTrailing (s : State) (i : EntryIx) : (s.clearTrailing i).halt = s.halt := by
  unfold State.clearTrailing
  split
  · split
    · exact (sameOutside_actTrailing _ _).halt
    · rfl
  · rfl

/-- While HALTED no trailing action is performed (R62). -/
theorem State.clearTrailing_halted {s : State} (h : s.halted = true) (i : EntryIx) : s.clearTrailing i = s := by
  unfold State.clearTrailing
  split
  · simp [h]
  · rfl

theorem State.halt_foldl_clearTrailing (l : List EntryIx) (s : State) :
    (l.foldl State.clearTrailing s).halt = s.halt := by
  induction l generalizing s with
  | nil => rfl
  | cons i l ih => exact (ih _).trans (s.halt_clearTrailing i)

theorem State.foldl_clearTrailing_halted (l : List EntryIx) {s : State} (h : s.halted = true) :
    l.foldl State.clearTrailing s = s := by
  induction l with
  | nil => rfl
  | cons i l ih => rw [List.foldl_cons, State.clearTrailing_halted h, ih]

theorem moves_timelineClearRequest : Handler.Moves timelineClearRequest := by
  intro body s
  unfold timelineClearRequest
  split
  · exact .refl s
  · dsimp only [accept]
    refine (TimelineMoves.refl s).move (.cleared (by simp [State.entry]) rfl fun hh => ?_)
    have halted : s.halted = true := by
      rw [← State.halted_congr (congrArg HaltUnit.causes (State.halt_foldl_clearTrailing s.dueList s))]
      exact hh
    refine ⟨halted, ?_⟩
    change (s.dueList.foldl State.clearTrailing s).lines = s.lines
    rw [State.foldl_clearTrailing_halted _ halted]

/-- A new safe level reaches the timed level of a TIMED line while HALTED (R70). -/
theorem OutLine.withSafe_settled (l : OutLine) (safe : Bool) : (l.withSafe safe true).Settled :=
  OutLine.forceSafe_settled _

/-- A line that becomes TIMED while HALTED takes its safe level (R70). -/
theorem OutLine.withMode_settled {l : OutLine} (h : l.Settled) (mode : LineMode) : (l.withMode mode true).Settled := by
  unfold OutLine.withMode
  split
  · exact fun _ => rfl
  · intro hm
    cases hm
  · exact h

theorem moves_lineSetupRequest : Handler.Moves lineSetupRequest := by
  intro body s
  unfold lineSetupRequest
  split
  · exact .refl s
  · next n mode safe _ =>
    split
    · exact .refl s
    · refine (TimelineMoves.refl s).move (.relined _ fun hh settled m => ?_)
      change ((s.setLine n _).line m).Settled
      rw [State.line_setLine]
      split
      · rw [hh]
        exact OutLine.withMode_settled (OutLine.withSafe_settled _ _) _
      · exact settled m

/-- LINE-WRITE is refused while HALTED (R72). -/
theorem moves_lineWriteRequest : Handler.Moves lineWriteRequest := by
  intro body s
  unfold lineWriteRequest
  split
  · exact .refl s
  · split
    · exact .refl s
    · next hh =>
      split
      · exact .refl s
      · exact (TimelineMoves.refl s).move (.relined _ fun k => absurd k hh)

theorem moves_haltRequest : Handler.Moves haltRequest := by
  intro body s
  unfold haltRequest
  split
  · exact .refl s
  · exact (TimelineMoves.refl s).addCause _

theorem moves_resumeRequest : Handler.Moves resumeRequest := by
  intro body s
  unfold resumeRequest
  split
  · exact .refl s
  · split
    · split
      · exact .refl s
      · exact (TimelineMoves.refl s).move (.resume rfl)
    · exact .refl s

theorem moves_stopSetupRequest : Handler.Moves stopSetupRequest := by
  intro body s
  unfold stopSetupRequest
  split
  · exact .refl s
  · dsimp only [accept]
    split
    · exact ((TimelineMoves.refl s).setHalt (by rfl)).addCause _
    · exact (TimelineMoves.refl s).setHalt rfl

theorem moves_channelSetupRequest : Handler.Moves channelSetupRequest := by
  intro body s
  unfold channelSetupRequest
  split
  · exact .refl s
  · split
    · exact .refl s
    · exact (TimelineMoves.refl s).setChannel _ _

theorem moves_channelQueryRequest : Handler.Moves channelQueryRequest := by
  intro body s
  unfold channelQueryRequest
  split
  · exact .refl s
  · dsimp only [accept]
    split
    · exact (TimelineMoves.refl s).setChannel _ _
    · exact .refl s

theorem moves_flushRequest : Handler.Moves flushRequest := by
  intro body s
  unfold flushRequest
  split
  · exact .refl s
  · exact TimelineMoves.foldl (fun c hu => hu.setChannel c _) _ (.refl s)

/-- Every request's handler; HELLO, TIME-READ, ENTRY-QUERY, ENTRY-LIST and LINES-READ only read. -/
theorem moves_handlerFor (k : RequestKind) : (handlerFor k).Moves := by
  cases k with
  | hello => exact Handler.moves_of_reads helloRequest_reads
  | status => exact moves_statusRequest
  | restart => exact moves_restartRequest
  | ack => exact moves_ackRequest
  | reportsOn => exact moves_reportsOnRequest
  | linkSetup => exact moves_linkSetupRequest
  | linkReset => exact moves_linkResetRequest
  | timeSetup => exact moves_timeSetupRequest
  | timeSet => exact moves_timeSetRequest
  | timeRun => exact moves_timeRunRequest
  | timeStop => exact moves_timeStopRequest
  | timeRead => exact Handler.moves_of_reads timeReadRequest_reads
  | place => exact moves_placeRequest
  | entryQuery => exact Handler.moves_of_reads entryQueryRequest_reads
  | entryList => exact Handler.moves_of_reads entryListRequest_reads
  | cancel => exact moves_cancelRequest
  | timelineClear => exact moves_timelineClearRequest
  | lineSetup => exact moves_lineSetupRequest
  | lineWrite => exact moves_lineWriteRequest
  | linesRead => exact Handler.moves_of_reads linesReadRequest_reads
  | halt => exact moves_haltRequest
  | resume => exact moves_resumeRequest
  | stopSetup => exact moves_stopSetupRequest
  | channelSetup => exact moves_channelSetupRequest
  | channelQuery => exact moves_channelQueryRequest
  | flush => exact moves_flushRequest

theorem moves_handlerOf (kind : Byte) : (handlerOf kind).Moves := by
  unfold handlerOf
  split
  · exact moves_handlerFor _
  · exact Handler.moves_of_reads fun _ _ => rfl

section Requests

variable {o s : State} (h : TimelineMoves o s) {f : Handler} (hf : f.Moves)
include h hf

theorem TimelineMoves.takeHead (g : Frame) : TimelineMoves o (s.takeHead f g) := by
  refine TimelineMoves.transmitChoice ?_
  unfold State.executeFrame
  split
  · exact (h.setLink _).setLink _
  · exact TimelineMoves.setLink (Relation.ReflTransGen.trans (h.setLink _) (hf g.body _)) _

theorem TimelineMoves.requestStep (g : Frame) : TimelineMoves o (requestStep f g s) := by
  have offered : TimelineMoves o (if s.headIs g then s else s.offerFrame g) := by
    split
    · exact h
    · exact h.offerFrame g
  unfold Machine.requestStep
  split
  · exact h
  · split
    · exact h.setLink _
    · dsimp only
      generalize (if s.headIs g then s else s.offerFrame g) = u at offered ⊢
      split
      · exact offered.takeHead hf g
      · exact offered

end Requests

/-! ### The base clock (chapter 1, section 9.3) -/

section Periods

variable {o s : State} (h : TimelineMoves o s)
include h

theorem TimelineMoves.internalTick : TimelineMoves o s.internalTick := by
  unfold State.internalTick
  split
  · exact (h.setTimebase (by rfl)).advance
  · exact h

theorem TimelineMoves.cntRise : TimelineMoves o s.cntRise := by
  unfold State.cntRise
  split
  · exact h.advance
  · exact h

theorem TimelineMoves.prescalePeriod : TimelineMoves o s.prescalePeriod := by
  unfold State.prescalePeriod
  split
  · split
    · exact h.internalTick
    · exact h.setTimebase rfl
  · exact h

theorem TimelineMoves.cntPeriod : TimelineMoves o s.cntPeriod := by
  unfold State.cntPeriod
  dsimp only
  split
  · exact (h.setTimebase (by rfl)).cntRise
  · exact h.setTimebase rfl

theorem TimelineMoves.stopPeriod : TimelineMoves o s.stopPeriod := by
  unfold State.stopPeriod
  split
  · split
    · exact h
    · exact h.setHalt rfl
  · split
    · exact h.setHalt rfl
    · split
      · exact h.acceptStop
      · exact h.setHalt rfl

theorem TimelineMoves.inputPeriod (c : ChanIx) : TimelineMoves o (s.inputPeriod c) := by
  unfold State.inputPeriod
  dsimp only
  split
  · split
    · exact h
    · exact h.rawTransition c
  · split
    · exact h.setChannel c _
    · split
      · exact h.acceptEdge c _
      · exact h.setChannel c _

theorem TimelineMoves.inputsPeriod : TimelineMoves o s.inputsPeriod :=
  TimelineMoves.foldl (fun c hu => hu.inputPeriod c) _ h

theorem TimelineMoves.rxPeriod : TimelineMoves o s.rxPeriod := by
  unfold State.rxPeriod
  dsimp only
  split
  · split
    · exact h.setLink _
    · exact h
  · split <;> exact h.setLink _
  · split
    · split <;> exact h.setLink _
    · split
      · exact h.setLink _
      · exact (h.setLink _).receive _ _

theorem TimelineMoves.stepGap : TimelineMoves o s.stepGap := by
  unfold State.stepGap
  split <;> exact h.setLink _

theorem TimelineMoves.stepReportTimer : TimelineMoves o s.stepReportTimer := by
  unfold State.stepReportTimer
  split
  · exact h.reportTimerExpires
  · exact h.setReports _

theorem TimelineMoves.stepLinger (c : ChanIx) : TimelineMoves o (s.stepLinger c) := by
  unfold State.stepLinger
  split <;> exact h.setChannel c _

theorem TimelineMoves.msPeriod : TimelineMoves o s.msPeriod := by
  unfold State.msPeriod
  split
  · have zeroed : TimelineMoves o (s.setTimebase { s.timebase with msPhase := 0 }) := h.setTimebase rfl
    exact TimelineMoves.foldl (fun c hu => hu.stepLinger c) _ zeroed.stepGap.stepReportTimer
  · exact h.setTimebase rfl

theorem TimelineMoves.txPeriod : TimelineMoves o s.txPeriod := by
  unfold State.txPeriod
  split
  · exact h.transmitChoice
  · split
    · exact h.frameEnds
    · exact h.setLink _

theorem TimelineMoves.serveRequest : TimelineMoves o s.serveRequest := by
  unfold State.serveRequest
  split
  · split
    · exact h.takeHead (moves_handlerOf _) _
    · exact h
  · exact h

theorem TimelineMoves.basePeriod : TimelineMoves o s.basePeriod := by
  unfold State.basePeriod
  split
  · unfold State.holdPeriod
    split
    · exact h.endReset _
    · exact h.same ⟨rfl, rfl, rfl, rfl, rfl⟩
  · have ticked := h.prescalePeriod.cntPeriod
    have sampled := ticked.stopPeriod.inputsPeriod.rxPeriod
    exact sampled.msPeriod.txPeriod.serveRequest.admitOne

end Periods

/-! ### Every command and every step -/

section Commands

variable {s t : State}

theorem moves_command (k : RequestKind) (seq : Byte) (body : List Byte)
    (he : exec (k.command seq body) s = .next t) : TimelineMoves s t := by
  rw [exec_command] at he
  cases he
  exact (TimelineMoves.refl s).requestStep (moves_handlerFor k) _

theorem moves_exec {c : Instr} (he : exec c s = .next t) : TimelineMoves s t := by
  have h := TimelineMoves.refl s
  cases c with
  | hello seq body => exact moves_command .hello seq body he
  | status seq body => exact moves_command .status seq body he
  | restart seq body => exact moves_command .restart seq body he
  | unknown kind seq body => cases he; exact h.requestStep (moves_handlerOf kind) _
  | answerCacheResend kind seq body => cases he; exact h.requestStep (moves_handlerOf kind) _
  | ack seq body => exact moves_command .ack seq body he
  | reportsOn seq body => exact moves_command .reportsOn seq body he
  | linkSetup seq body => exact moves_command .linkSetup seq body he
  | linkReset seq body => exact moves_command .linkReset seq body he
  | timeSetup seq body => exact moves_command .timeSetup seq body he
  | timeSet seq body => exact moves_command .timeSet seq body he
  | timeRun seq body => exact moves_command .timeRun seq body he
  | timeStop seq body => exact moves_command .timeStop seq body he
  | timeRead seq body => exact moves_command .timeRead seq body he
  | place seq body => exact moves_command .place seq body he
  | entryQuery seq body => exact moves_command .entryQuery seq body he
  | entryList seq body => exact moves_command .entryList seq body he
  | cancel seq body => exact moves_command .cancel seq body he
  | timelineClear seq body => exact moves_command .timelineClear seq body he
  | lineSetup seq body => exact moves_command .lineSetup seq body he
  | lineWrite seq body => exact moves_command .lineWrite seq body he
  | linesRead seq body => exact moves_command .linesRead seq body he
  | halt seq body => exact moves_command .halt seq body he
  | resume seq body => exact moves_command .resume seq body he
  | stopSetup seq body => exact moves_command .stopSetup seq body he
  | channelSetup seq body => exact moves_command .channelSetup seq body he
  | channelQuery seq body => exact moves_command .channelQuery seq body he
  | flush seq body => exact moves_command .flush seq body he
  | internalTick => cases he; exact h.internalTick
  | cntRisingEdge =>
    cases he
    split
    · exact h
    · exact (h.setTimebase (by rfl)).cntRise
  | rawTransition c =>
    cases he
    split
    · exact h
    · exact h.rawTransition c
  | glitch c =>
    cases he
    split
    · exact h.setChannel c _
    · split
      · exact h
      · exact h.setChannel c _
  | edgeAccepted c =>
    cases he
    split
    · exact (h.setChannel c _).acceptEdge c _
    · exact h
  | stopWindowOpen =>
    cases he
    split
    · exact h
    · exact h.setHalt rfl
  | stopGlitch =>
    cases he
    split
    · exact h.setHalt rfl
    · exact h
  | stopLevelAccepted =>
    cases he
    split
    · exact (h.setHalt (by rfl)).acceptStop
    · exact h
  | lingerExpiry c =>
    cases he
    split
    · exact h.setChannel c _
    · exact h
  | reportTimerExpiry =>
    cases he
    split
    · exact h.reportTimerExpires.transmitChoice
    · exact h
  | admission => cases he; exact h.admitOne
  | rxCharacter value stopBit =>
    cases he
    split
    · exact h
    · exact h.receive value stopBit
  | gapAbort =>
    cases he
    split
    · exact h
    · exact h.setLink _
  | txFrameEnd => cases he; exact h.frameEnds
  | powerOn => cases he; exact h.beginReset _
  | resetPin =>
    cases he
    split
    · split
      · exact h
      · exact h.beginReset _
    · exact h.beginReset _
  | resetEnd rate1 rate0 stop inputs =>
    cases he
    split
    · refine TimelineMoves.endReset ?_ _
      exact h.same ⟨rfl, rfl, rfl, rfl, rfl⟩
    · exact h

/-- A step is a chain of the Timeline's changes. -/
theorem moves_step (hs : step s = .next t) : TimelineMoves s t := by
  unfold step at hs
  split at hs
  · next c rest _ =>
    have ready : TimelineMoves s (s.setPending rest) := (TimelineMoves.refl s).same ⟨rfl, rfl, rfl, rfl, rfl⟩
    exact Relation.ReflTransGen.trans ready (moves_exec hs)
  · cases hs
    exact (TimelineMoves.refl s).basePeriod

end Commands

/-! ### The statements -/

/-- Settles O8: each change of the Timeline keeps both conditions. -/
theorem dueListAndHaltKept : Obligations.DueListAndHaltKept := by
  intro s t hd hh hs
  refine (moves_step hs).keeps (p := fun u => DueListOk u ∧ HaltOk u) ?_ ⟨hd, hh⟩
  rintro u v m ⟨hd, hh⟩
  exact ⟨m.dueListOk hd, m.haltOk hd hh⟩

/-- Settles O9: each change of the Timeline keeps the list ordered with every due time ahead. -/
theorem dueOrderKept : Obligations.DueOrderKept := by
  intro s t hd hp ho hs
  have kept := (moves_step hs).keeps (p := State.Scheduled 0) (fun _ _ m h => m.scheduled h)
    (s.scheduled_iff.mpr ⟨hd, hp, ho⟩)
  exact (t.scheduled_iff.mp kept).2

end Sys2Proof.Machine
end

section
/-! PROOF. PLACE (section 2.5): refused by the first of its checks that fails, or placed ahead. -/

namespace Sys2Proof.Machine

/-! ### The checks of PLACE (Table 2-3) -/

theorem State.triggerOff_iff (s : State) (p : Plan) :
    s.triggerOff p = true ↔
      ∃ c sense d arms, p.start = .onTrigger c sense d arms ∧ (s.channel c).setup.mode = .off := by
  unfold State.triggerOff
  split
  · next c sense d arms hs => simp [hs]
  · next hs =>
    simp only [Bool.false_eq_true, false_iff]
    rintro ⟨c, sense, d, arms, hc, -⟩
    exact hs c sense d arms hc

theorem State.lowestFree_iff (s : State) (i : EntryIx) : s.lowestFree = some i ↔ LowestFree s i := by
  unfold State.lowestFree
  rw [List.find?_eq_some_iff_getElem]
  constructor
  · rintro ⟨hi, k, hk, rfl, hbefore⟩
    refine ⟨by simpa using hi, fun j hj => ?_⟩
    have := hbefore j.val (by simpa [Fin.lt_def] using hj)
    simpa [Option.isSome_iff_ne_none] using this
  · rintro ⟨hi, hbefore⟩
    refine ⟨by simp [hi], i.val, by simp, by simp, fun j hj => ?_⟩
    have := hbefore ⟨j, hj.trans i.isLt⟩ hj
    simpa [Option.isSome_iff_ne_none] using this

theorem State.lowestFree_none {s : State} (h : ∀ i, s.entry i ≠ none) : s.lowestFree = none := by
  unfold State.lowestFree
  rw [List.find?_eq_none]
  intro i _
  simpa using h i

theorem State.lowestFree_some {s : State} (h : ∃ i, s.entry i = none) : ∃ i, s.lowestFree = some i := by
  obtain ⟨i, hi⟩ := h
  rw [← Option.isSome_iff_exists, State.lowestFree, List.find?_isSome]
  exact ⟨i, List.mem_finRange i, by simp [hi]⟩

section Handler

variable {s : State} {body : List Byte} {p : Plan}

theorem placeRequest_error {st : Status} (hr : readPlace body = .error st) : placeRequest body s = refuse st s := by
  simp only [placeRequest, hr]

variable (hr : readPlace body = .ok p)
include hr

theorem placeRequest_direct (hm : (s.line p.line).mode = .direct) : placeRequest body s = refuse .line s := by
  simp only [placeRequest, hr, hm, if_true]

variable (hm : (s.line p.line).mode = .timed)
include hm

theorem placeRequest_off (ho : s.triggerOff p = true) : placeRequest body s = refuse .state s := by
  simp [placeRequest, hr, hm, ho]

variable (ho : s.triggerOff p = false)
include ho

theorem placeRequest_full (hf : s.lowestFree = none) : placeRequest body s = refuse .room s := by
  simp [placeRequest, hr, hm, ho, hf]

variable {i : EntryIx} (hf : s.lowestFree = some i)
include hf

theorem placeRequest_late (hl : s.refusedLate p = true) : placeRequest body s = refuse .late s := by
  simp [placeRequest, hr, hm, ho, hf, hl]

theorem placeRequest_placed (hl : s.refusedLate p = false) : placeRequest body s = s.placeAt i p := by
  simp [placeRequest, hr, hm, ho, hf, hl]

end Handler

theorem exec_place_refused {s : State} {seq : Byte} {body : List Byte} {st : Status}
    (hx : Executes s (RequestKind.place.frame seq body)) (hl : body.length ≤ 512)
    (he : placeRequest body s.dequeued = refuse st s.dequeued) :
    exec (.place seq body) s = .next (s.refused .place seq st) := exec_refused (k := .place) hx hl he

/-- Settles O39: the reader and then each check in turn, on the state as the handler sees it. -/
theorem placeRefused : Obligations.PlaceRefused := by
  intro s seq
  refine ⟨fun body hl hx => ⟨fun hb => ?_, fun hb hn => ?_⟩, fun p hp hx => ?_⟩
  · exact exec_place_refused hx hl (placeRequest_error (readPlace_unfit hb))
  · exact exec_place_refused hx hl (placeRequest_error (readPlace_no_plan hb hn))
  · have hl : p.body.length ≤ 512 := p.length_body.trans (by decide)
    have hr := (readPlace_iff p.body p).mpr ⟨hp, rfl⟩
    refine ⟨fun hm => ?_, fun hm ho => ?_, fun hm ho hf => ?_, fun hm hf time hs hlate => ?_⟩
    · exact exec_place_refused hx hl (placeRequest_direct (s := s.dequeued) hr hm)
    · exact exec_place_refused hx hl (placeRequest_off (s := s.dequeued) hr hm ((s.triggerOff_iff p).mpr ho))
    · have on : s.triggerOff p = false := by rwa [Bool.eq_false_iff, Ne, s.triggerOff_iff]
      exact exec_place_refused hx hl (placeRequest_full (s := s.dequeued) hr hm on (State.lowestFree_none hf))
    · obtain ⟨i, hi⟩ := State.lowestFree_some hf
      have on : s.triggerOff p = false := by simp [State.triggerOff, hs]
      have late : s.refusedLate p = true := by simp only [State.refusedLate, hs]; exact hlate
      exact exec_place_refused hx hl (placeRequest_late (s := s.dequeued) hr hm on hi late)

/-! ### The entry placed, and its answer (R28, R35) -/

/-- What the answer shows of a record. -/
theorem State.placed_eq {s : State} {i : EntryIx} {o : Option Entry} (h : s.entry i = o) (late : Bool) (missed : Nat) :
    s.placed i late missed =
      .place i (entryState o) (o.bind fun e => e.progress.due) (o.bind fun e => e.progress.remaining) late missed := by
  subst h
  unfold State.placed State.dueOf
  cases s.entry i <;> rfl

theorem State.entry_putEntry_self (s : State) (i : EntryIx) (e : Option Entry) : (s.putEntry i e).entry i = e := by
  rw [State.entry_putEntry, if_pos rfl]

/-- A FREE place is not on the Due List (R23). -/
theorem DueListOk.not_mem_of_free {s : State} (h : DueListOk s) {i : EntryIx} (hi : s.entry i = none) :
    i ∉ s.dueList := by
  intro hm
  have := (h.2 i).mp hm
  simp [State.dueOf, hi] at this

section Placed

variable {s : State} {seq : Byte} {p : Plan} {i : EntryIx} (hp : p.InRange)
  (hx : Executes s (RequestKind.place.frame seq p.body)) (hm : (s.line p.line).mode = .timed) (hi : LowestFree s i)
  (ho : s.triggerOff p = false) (hl : s.refusedLate p = false)
include hp hx hm hi ho hl

/-- A PLACE that passes every check is placed, and answered OK. -/
theorem exec_place {fields : AnswerFields} {t : State} (ht : s.dequeued.placeAt i p = accept fields t) :
    exec (.place seq p.body) s =
      .next { t with link := s.link.answered (RequestKind.place.okAnswer seq fields) } := by
  obtain ⟨e, hputs, -⟩ := s.dequeued.placeAt_puts i hp
  obtain ⟨lines, -, heq⟩ := hputs.eq
  have hr := (readPlace_iff p.body p).mpr ⟨hp, rfl⟩
  have placed := placeRequest_placed (s := s.dequeued) hr hm ho ((s.lowestFree_iff i).mpr hi) hl
  rw [ht] at heq
  have ht' : t = ({ s.dequeued with lines := lines } : State).putEntry i e := heq
  refine exec_accepted (k := .place) hx (p.length_body.trans (by decide)) (placed.trans ht) ?_ ?_
  · rw [ht', State.putEntry_link]
  · rw [ht', State.putEntry_hold]
    rfl

/-- A PLACE whose entry is PENDING: it is inserted behind every entry as near or nearer. -/
theorem exec_place_pending (hd : DueListOk s) {r : Entry} {due : Tick} {left : Quantity} {late : Bool} {missed : Nat}
    (hr : r.progress = .pending due left)
    (ht : s.dequeued.placeAt i p =
      accept ((s.dequeued.putEntry i (some r)).placed i late missed) (s.dequeued.putEntry i (some r))) :
    ∃ after, InsertedAt s s.dueList i (distance s.timebase.count due) after ∧
      exec (.place seq p.body) s =
        .next { s.setEntry i (some r) with
          dueList := after
          link := s.link.answered (RequestKind.place.okAnswer seq
            (.place i .pending (some due) (some left) late missed)) } := by
  obtain ⟨front, back, hlist, hput, hfront, hback⟩ :=
    State.putEntry_some s.dequeued (i := i) (e := r) (d := due) (by rw [hr]; rfl) (hd.not_mem_of_free hi.1)
  refine ⟨front ++ i :: back, ⟨front, back, hlist, rfl, hfront, hback⟩, ?_⟩
  rw [exec_place hp hx hm hi ho hl ht, State.placed_eq (State.entry_putEntry_self _ i _), hput]
  simp only [entryState, Option.bind_some, hr, Progress.state, Progress.due, Progress.remaining]
  rfl

/-- A PLACE whose entry has no due time: the Due List stays. -/
theorem exec_place_undue (hd : DueListOk s) {o : Option Entry} {late : Bool} {missed : Nat}
    (hr : (o.bind fun e => e.progress.due) = none)
    (ht : s.dequeued.placeAt i p =
      accept ((s.dequeued.putEntry i o).placed i late missed) (s.dequeued.putEntry i o)) :
    exec (.place seq p.body) s =
      .next { s.setEntry i o with
        link := s.link.answered (RequestKind.place.okAnswer seq
          (.place i (entryState o) none (o.bind fun e => e.progress.remaining) late missed)) } := by
  have stays : (s.dequeued.dueList.filter fun j => !(j == i)) = s.dueList :=
    filter_ne_of_not_mem (hd.not_mem_of_free hi.1)
  rw [exec_place hp hx hm hi ho hl ht, State.placed_eq (State.entry_putEntry_self _ i _), hr,
    State.putEntry_none s.dequeued hr, stays]
  rfl

end Placed

/-! ### A start that is not reached (R28, R29, R34) -/

section PlaceAt

variable {s : State} {i : EntryIx} {p : Plan}

theorem State.placeAt_ahead {t : Tick} {late : LatePolicy} (hs : p.start = .atTime t late)
    (hr : reached s.now t = false) :
    s.placeAt i p =
      accept ((s.putEntry i (some ⟨p, .pending t p.firstRemaining, none, .empty⟩)).placed i false 0)
        (s.putEntry i (some ⟨p, .pending t p.firstRemaining, none, .empty⟩)) := by
  simp [State.placeAt, hs, hr, Plan.newEntry, Start.arms]

theorem State.placeAt_after {d : Tick} (hs : p.start = .afterDelay d) :
    s.placeAt i p =
      accept ((s.putEntry i (some ⟨p, .pending (s.now + d) p.firstRemaining, none, .empty⟩)).placed i false 0)
        (s.putEntry i (some ⟨p, .pending (s.now + d) p.firstRemaining, none, .empty⟩)) := by
  simp [State.placeAt, hs, Plan.newEntry, Start.arms]

theorem State.placeAt_on {c : ChanIx} {sense : TriggerSense} {d : Tick} {arms : Nat}
    (hs : p.start = .onTrigger c sense d arms) :
    s.placeAt i p =
      accept ((s.putEntry i (some ⟨p, .waiting, some (Quantity.ofLimit arms), .empty⟩)).placed i false 0)
        (s.putEntry i (some ⟨p, .waiting, some (Quantity.ofLimit arms), .empty⟩)) := by
  simp [State.placeAt, hs, Plan.newEntry, Start.arms]

end PlaceAt

/-- Settles O37: an AT start that is not reached, an AFTER start, an ON start. -/
theorem placeAhead : Obligations.PlaceAhead := by
  intro s seq p i hp hx hd hm hi
  refine ⟨fun time late hs hr => ?_, fun d hs => ?_, fun c sense d arms hs hc => ?_⟩
  · have on : s.triggerOff p = false := by simp [State.triggerOff, hs]
    have timely : s.refusedLate p = false := by
      unfold State.refusedLate
      rw [hs]
      cases late
      · rfl
      · exact hr
    exact exec_place_pending hp hx hm hi on timely hd rfl (State.placeAt_ahead hs hr)
  · have on : s.triggerOff p = false := by simp [State.triggerOff, hs]
    have timely : s.refusedLate p = false := by simp [State.refusedLate, hs]
    exact exec_place_pending hp hx hm hi on timely hd rfl (State.placeAt_after hs)
  · have on : s.triggerOff p = false := by simp [State.triggerOff, hs, hc]
    have timely : s.refusedLate p = false := by simp [State.refusedLate, hs]
    exact exec_place_undue hp hx hm hi on timely hd rfl (State.placeAt_on hs)

end Sys2Proof.Machine
end

section
/-! PROOF. PLACE of a start that is reached (R30 to R33): the catch-up on the grid, while RUNNING and while HALTED. -/

namespace Sys2Proof.Machine

/-! ### The catch-up number (R30, R31, R33) -/

/-- The catch-up of the model is the one the statements speak of. -/
theorem catchesUp_eq {p : Plan} {now start : Tick} {k taken : Nat} (h : CatchesUp p now start k taken) :
    k = p.catchUp (backDistance now start) ∧ taken = p.counted k := by
  obtain ⟨hk, ht⟩ := h
  unfold Plan.catchUp Plan.counted backDistance
  cases hr : p.rep with
  | none => simp_all
  | some r => simp_all [Nat.one_le_iff_ne_zero]

theorem Plan.catchUp_pos (p : Plan) (back : Nat) : 1 ≤ p.catchUp back := by
  unfold Plan.catchUp
  split
  · exact Nat.le_add_left _ _
  · exact le_rfl

theorem Plan.counted_pos (p : Plan) {k : Nat} (hk : 1 ≤ k) : 1 ≤ p.counted k := by
  unfold Plan.counted
  split
  · split
    · next h => exact h.1
    · exact hk
  · exact hk

/-! ### The entry after an occurrence (R40, R44) -/

section GoOn

variable {e : Entry} {left : Quantity} (outcome : FinalOutcome) (now : Tick)

theorem Entry.goOn_pending (hl : left.positive = true) (due : Tick) :
    e.goOn left (some due) outcome now = some { e with progress := .pending due left } := by
  simp [Entry.goOn, hl]

theorem Entry.goOn_waiting (hl : left.positive = false) (ha : e.armed = true) (due : Option Tick) :
    e.goOn left due outcome now = some { e with progress := .waiting } := by
  simp [Entry.goOn, hl, Entry.endSeries, ha]

theorem Entry.goOn_end (hl : left.positive = false) (ha : e.armed = false) (due : Option Tick) :
    e.goOn left due outcome now = e.endLife outcome now (some (.number 0)) := by
  simp [Entry.goOn, hl, Entry.endSeries, ha]

end GoOn

theorem Entry.endLife_due (e : Entry) (outcome : FinalOutcome) (now : Tick) (r : Option Quantity) :
    ((e.endLife outcome now r).bind fun e => e.progress.due) = none := by
  unfold Entry.endLife
  split <;> rfl

theorem Entry.endLife_remaining (e : Entry) (outcome : FinalOutcome) (now : Tick) (r : Option Quantity) :
    ((e.endLife outcome now r).bind fun e => e.progress.remaining) = none := by
  unfold Entry.endLife
  split <;> rfl

theorem Entry.endLife_state (e : Entry) (outcome : FinalOutcome) (now : Tick) (r : Option Quantity) :
    entryState (e.endLife outcome now r) = if e.plan.final then .retired else .free := by
  unfold Entry.endLife
  split <;> rfl

theorem Entry.eventRemaining_left {e : Entry} {left : Quantity} (h : left.positive = true ∨ e.armed = false) :
    e.eventRemaining left = some left := by
  unfold Entry.eventRemaining
  rcases h with h | h <;> simp [h]

theorem Entry.eventRemaining_waiting {e : Entry} {left : Quantity} (hl : left.positive = false)
    (ha : e.armed = true) : e.eventRemaining left = none := by
  simp [Entry.eventRemaining, hl, ha]

/-! ### Beginning late while RUNNING (R31, R32, R49) -/

/-- The record of a series that begins late: the first occurrence fired, the skipped grid points missed. -/
def Entry.begun (e : Entry) (late : Bool) (taken : Nat) (now : Tick) (shown : Option Quantity) : Entry :=
  (e.account (.fired late) now shown).accountMisses (taken - 1) now shown

section BeginLate

variable {s : State} {e : Entry} {start : Tick} {k taken : Nat}
  (hk : k = e.plan.catchUp (backDistance s.now start)) (ht : taken = e.plan.counted k) (i : EntryIx) (late : Bool)
include hk ht

theorem State.beginLate_trailing {w : Tick} (hw : e.plan.action.width = some w)
    (hr : reached s.now (start + w) = false) :
    s.beginLate i e start late =
      (s.act e.plan.line e.plan.action.leading).putEntry i
        (some { e.begun late taken s.now (some (e.plan.firstRemaining.less taken)) with
          progress := .trailing (start + w) start (e.plan.firstRemaining.less taken) false }) := by
  subst hk ht
  simp only [State.beginLate, hw, hr]
  rfl

theorem State.beginLate_complete (h : ∀ w, e.plan.action.width = some w → reached s.now (start + w) = true) :
    s.beginLate i e start late =
      ((s.act e.plan.line e.plan.action.leading).actTrailing e.plan).putEntry i
        ((e.begun late taken s.now (e.eventRemaining (e.plan.firstRemaining.less taken))).goOn
          (e.plan.firstRemaining.less taken) (e.plan.gridPoint start k) (if taken = 1 then .done else .missed) s.now) := by
  subst hk ht
  cases hw : e.plan.action.width with
  | none =>
    have single : e.plan.action.trailing = none := by
      cases ha : e.plan.action <;> simp_all [Action.width, Action.trailing]
    simp only [State.beginLate, hw, State.actTrailing, single]
    rfl
  | some w =>
    simp only [State.beginLate, hw, h w hw, if_true]
    rfl

end BeginLate

/-! ### Lines and places after an operation -/

theorem State.line_putEntry (s : State) (i : EntryIx) (o : Option Entry) (n : LineIx) :
    (s.putEntry i o).line n = s.line n := State.line_congr (State.putEntry_lines s i o) n

theorem State.line_act (s : State) (n m : LineIx) (a : LevelAction) :
    (s.act n a).line m = if n = m then { s.line n with timed := a.apply (s.line n).timed } else s.line m :=
  State.line_setLine s n m _

/-- The level that a plan's trailing action leaves. -/
def Plan.trailed (p : Plan) (level : Bool) : Bool :=
  match p.action.trailing with
  | some a => a.apply level
  | none => level

theorem State.line_actTrailing (s : State) (p : Plan) (m : LineIx) :
    (s.actTrailing p).line m =
      if p.line = m then { s.line p.line with timed := p.trailed (s.line p.line).timed } else s.line m := by
  unfold State.actTrailing Plan.trailed
  cases p.action.trailing with
  | some a => exact s.line_act p.line m a
  | none => by_cases hm : p.line = m <;> simp [hm]

/-- A record with a due time is inserted behind every entry as near or nearer, whatever the lines (R24). -/
theorem State.putEntry_inserted {s : State} {i : EntryIx} (hi : i ∉ s.dueList) (lines : Vector OutLine 16) {e : Entry}
    {d : Tick} (hd : e.progress.due = some d) :
    InsertedAt s s.dueList i (distance s.timebase.count d)
      (({ s with lines := lines } : State).putEntry i (some e)).dueList := by
  obtain ⟨front, back, hlist, hput, hfront, hback⟩ :=
    State.putEntry_some ({ s with lines := lines } : State) (i := i) (e := e) (d := d) hd hi
  exact ⟨front, back, hlist, by rw [hput]; rfl, hfront, hback⟩

/-- A record without a due time at an index that is not on the list: the list stays. -/
theorem State.putEntry_stays {s : State} {i : EntryIx} (hi : i ∉ s.dueList) (lines : Vector OutLine 16)
    {o : Option Entry} (hd : (o.bind fun e => e.progress.due) = none) :
    (({ s with lines := lines } : State).putEntry i o).dueList = s.dueList := by
  rw [State.putEntry_none _ hd]
  exact filter_ne_of_not_mem hi

@[simp] theorem Entry.begun_plan (e : Entry) (late : Bool) (taken : Nat) (now : Tick) (shown : Option Quantity) :
    (e.begun late taken now shown).plan = e.plan := by simp [Entry.begun]

@[simp] theorem Entry.begun_armed (e : Entry) (late : Bool) (taken : Nat) (now : Tick) (shown : Option Quantity) :
    (e.begun late taken now shown).armed = e.armed := by simp [Entry.begun]

/-- Beginning late changes its line and its place alone. -/
theorem State.beginLate_others (s : State) (i : EntryIx) (e : Entry) (start : Tick) (late : Bool) :
    (∀ n, n ≠ e.plan.line → (s.beginLate i e start late).line n = s.line n) ∧
      ∀ j, j ≠ i → (s.beginLate i e start late).entry j = s.entry j := by
  by_cases hr : ∀ w, e.plan.action.width = some w → reached s.now (start + w) = true
  · rw [State.beginLate_complete rfl rfl i late hr]
    refine ⟨fun n hn => ?_, fun j hj => ?_⟩
    · rw [State.line_putEntry, State.line_actTrailing, if_neg hn.symm, State.line_act, if_neg hn.symm]
    · rw [State.entry_putEntry, if_neg hj.symm, State.actTrailing_eq]
      rfl
  · push Not at hr
    obtain ⟨w, hw, hr⟩ := hr
    rw [State.beginLate_trailing rfl rfl i late hw (by simpa using hr)]
    refine ⟨fun n hn => ?_, fun j hj => ?_⟩
    · rw [State.line_putEntry, State.line_act, if_neg hn.symm]
    · rw [State.entry_putEntry, if_neg hj.symm]
      rfl

/-- A series that begins late while RUNNING is as the statements have it. -/
theorem State.beginLate_begins {s : State} {i : EntryIx} (hi : i ∉ s.dueList) {e : Entry} {start : Tick} (late : Bool)
    {k taken : Nat} (hk : k = e.plan.catchUp (backDistance s.now start)) (ht : taken = e.plan.counted k) :
    BeginsLate s (s.beginLate i e start late) i e start late k taken := by
  have frame := sameOutside_beginLate s i e start late
  obtain ⟨lines, entries⟩ := s.beginLate_others i e start late
  refine ⟨lines, entries, frame.timebase, frame.halt, frame.channels, frame.reports, frame.hold, frame.pending,
    fun w hw hr => ?_, fun hr => ?_⟩
  · rw [State.beginLate_trailing hk ht i late hw hr]
    refine ⟨?_, State.entry_putEntry_self _ _ _, State.putEntry_inserted hi _ rfl⟩
    rw [State.line_putEntry, State.line_act, if_pos rfl]
  · rw [State.beginLate_complete hk ht i late hr]
    refine ⟨?_, fun r hrep hl => ?_, fun hl ha => ?_, fun hl ha => ?_⟩
    · rw [State.line_putEntry, State.line_actTrailing, if_pos rfl, State.line_act, if_pos rfl]
      rfl
    · have grid : e.plan.gridPoint start k = some (start + BitVec.ofNat 32 (k * r.period.toNat)) := by
        simp [Plan.gridPoint, hrep]
      rw [Entry.eventRemaining_left (.inl hl), grid, Entry.goOn_pending _ _ hl, State.actTrailing_eq]
      exact ⟨State.entry_putEntry_self _ _ _, State.putEntry_inserted hi _ rfl⟩
    · rw [Entry.eventRemaining_waiting hl ha, Entry.goOn_waiting _ _ hl (by simpa using ha), State.actTrailing_eq]
      exact ⟨State.entry_putEntry_self _ _ _, State.putEntry_stays hi _ rfl⟩
    · rw [Entry.eventRemaining_left (.inr ha), Entry.goOn_end _ _ hl (by simpa using ha), State.actTrailing_eq]
      exact ⟨State.entry_putEntry_self _ _ _, State.putEntry_stays hi _ (Entry.endLife_due _ _ _ _)⟩

/-- A pulse whose trailing time is not reached has skipped no grid point: its width is less than its period (R26). -/
theorem Plan.InRange.counted_eq_one {p : Plan} (hp : p.InRange) {now start w : Tick} (hr : reached now start = true)
    (hw : p.action.width = some w) (ha : reached now (start + w) = false) :
    p.counted (p.catchUp (backDistance now start)) = 1 := by
  have back := backDistance_lt_width hr ((withinHorizon_iff w).mp (hp.width hw)).2 ha
  unfold Plan.counted Plan.catchUp
  cases hrep : p.rep with
  | none => rfl
  | some r =>
    have first : backDistance now start / r.period.toNat = 0 :=
      Nat.div_eq_of_lt (back.trans (hp.width_lt hw hrep))
    simp only [first]
    split <;> omega

/-! ### PLACE of a start that is reached (R30 to R33) -/

section PlaceLate

variable {s : State} {i : EntryIx} {p : Plan} {time : Tick} {late : LatePolicy} {k taken : Nat}
  (hs : p.start = .atTime time late) (hr : reached s.now time = true)
  (hk : k = p.catchUp (backDistance s.now time)) (ht : taken = p.counted k)
include hs hr hk ht

theorem State.placeAt_late (hh : s.halted = false) :
    s.placeAt i p =
      accept ((s.beginLate i ⟨p, .waiting, none, .empty⟩ time true).placed i true (taken - 1))
        (s.beginLate i ⟨p, .waiting, none, .empty⟩ time true) := by
  subst hk ht
  simp [State.placeAt, hs, hr, hh, Plan.newEntry, Start.arms]

/-- While HALTED the first occurrence and the skipped grid points are missed together (R33, R53). -/
theorem State.placeAt_missed (hh : s.halted = true) :
    let left := p.firstRemaining.less taken
    let o := ((⟨p, .waiting, none, .empty⟩ : Entry).account (.missed taken) s.now (some left)).goOn left
      (p.gridPoint time k) .missed s.now
    s.placeAt i p = accept ((s.putEntry i o).placed i false taken) (s.putEntry i o) := by
  have some_taken : taken ≠ 0 := by
    have := p.counted_pos (p.catchUp_pos (backDistance s.now time))
    rw [ht, hk]
    omega
  have missed : s.beginMissed i ⟨p, .waiting, none, .empty⟩ time =
      s.putEntry i (((⟨p, .waiting, none, .empty⟩ : Entry).account (.missed taken) s.now
        (some (p.firstRemaining.less taken))).goOn (p.firstRemaining.less taken) (p.gridPoint time k) .missed s.now) := by
    simp only [State.beginMissed, ← hk, ← ht, Entry.accountMisses, if_neg some_taken,
      Entry.eventRemaining_left (e := ⟨p, .waiting, none, .empty⟩) (.inr rfl)]
  simp only [← missed, State.placeAt, hs, hr, hh, if_true, ← hk, ← ht, Plan.newEntry, Start.arms, Option.map_none]

end PlaceLate

/-- Settles O38: the timeline RUNNING, then HALTED. -/
theorem placeLate : Obligations.PlaceLate := by
  intro s seq p i time k taken hp hx hd hm hi hs hr hc
  obtain ⟨hk, ht⟩ := catchesUp_eq hc
  have on : s.triggerOff p = false := by simp [State.triggerOff, hs]
  have timely : s.refusedLate p = false := by simp [State.refusedLate, hs]
  refine ⟨fun hh => ?_, fun hh => ?_⟩
  · have ran := State.placeAt_late (s := s.dequeued) (i := i) hs hr hk ht hh
    have begins := State.beginLate_begins (s := s.dequeued) (i := i) (hd.not_mem_of_free hi.1)
      (e := ⟨p, .waiting, none, .empty⟩) (start := time) true hk ht
    obtain ⟨-, -, -, -, -, -, -, -, trailing, complete⟩ := id begins
    refine ⟨_, exec_place hp hx hm hi on timely ran, begins, fun w hw ha => ?_,
      fun ha => ⟨fun r hrep hl => ?_, fun hl => ?_⟩⟩
    · obtain ⟨-, entry, -⟩ := trailing w hw ha
      have one : taken = 1 := by rw [ht, hk, hp.counted_eq_one hr hw ha]
      dsimp only
      rw [State.placed_eq entry, one]
      rfl
    · obtain ⟨-, pending, -, -⟩ := complete ha
      obtain ⟨entry, -⟩ := pending r hrep hl
      dsimp only
      rw [State.placed_eq entry]
      rfl
    · obtain ⟨-, -, -, ended⟩ := complete ha
      obtain ⟨entry, -⟩ := ended hl rfl
      dsimp only
      rw [State.placed_eq entry, Entry.endLife_state, Entry.endLife_due, Entry.endLife_remaining,
        Entry.accountMisses_plan]
      rfl
  · have ran := State.placeAt_missed (s := s.dequeued) (i := i) hs hr hk ht hh
    refine ⟨fun r hrep hl => ?_, fun hl => ?_⟩
    · have grid : p.gridPoint time k = some (time + BitVec.ofNat 32 (k * r.period.toNat)) := by
        simp [Plan.gridPoint, hrep]
      simp only [grid, Entry.goOn_pending _ _ hl] at ran
      exact exec_place_pending hp hx hm hi on timely hd rfl ran
    · simp only [Entry.goOn_end (e := (⟨p, .waiting, none, .empty⟩ : Entry).account _ _ _) _ _ hl rfl] at ran
      have placed := exec_place_undue hp hx hm hi on timely hd (Entry.endLife_due _ _ _ _) ran
      rw [Entry.endLife_state, Entry.endLife_remaining] at placed
      exact placed

end Sys2Proof.Machine
end

section
/-! PROOF. ENTRY-QUERY and ENTRY-LIST (section 2.6). -/

namespace Sys2Proof.Machine

/-! ### The index of a request (R36, R37) -/

theorem readIndex_high {b : Byte} (h : 63 < b.toNat) : readIndex [b] = .error .value := by
  have out : ¬b.toNat < 64 := by omega
  simp [readIndex, below, out]

theorem readIndex_of_eq {b : Byte} {i : EntryIx} (h : i.val = b.toNat) : readIndex [b] = .ok i := by
  have inside : b.toNat < 64 := h ▸ i.isLt
  simp only [readIndex, below, inside, dite_true]
  exact congrArg _ (Fin.ext h.symm)

section Queries

variable {s : State} {body : List Byte}

theorem entryQueryRequest_error {st : Status} (hr : readIndex body = .error st) :
    entryQueryRequest body s = refuse st s := by
  simp only [entryQueryRequest, hr]

theorem entryQueryRequest_free {i : EntryIx} (hr : readIndex body = .ok i) (he : s.entry i = none) :
    entryQueryRequest body s = refuse .none s := by
  simp only [entryQueryRequest, hr, he]

theorem entryQueryRequest_used {i : EntryIx} {e : Entry} (hr : readIndex body = .ok i) (he : s.entry i = some e) :
    entryQueryRequest body s = accept (.entryQuery i e) s := by
  simp only [entryQueryRequest, hr, he]

theorem entryListRequest_error {st : Status} (hr : readIndex body = .error st) :
    entryListRequest body s = refuse st s := by
  simp only [entryListRequest, hr]

theorem entryListRequest_index {i : EntryIx} (hr : readIndex body = .ok i) :
    entryListRequest body s = accept (.entryList (s.listFrom i) (continuation (s.listFrom i))) s := by
  simp only [entryListRequest, hr]

end Queries

/-! ### What ENTRY-LIST lists (R37) -/

/-- The indices from `n` upward, in order. -/
theorem drop_finRange (m n : Nat) : (List.finRange m).drop n = (List.finRange m).filter fun i => decide (n ≤ i.val) := by
  have low : ((List.finRange m).take n).filter (fun i => decide (n ≤ i.val)) = [] := by
    refine List.filter_eq_nil_iff.mpr fun i hi => ?_
    obtain ⟨j, hj, rfl⟩ := List.mem_take_iff_getElem.mp hi
    have hjn : j < n := by omega
    simpa using hjn
  have high : ((List.finRange m).drop n).filter (fun i => decide (n ≤ i.val)) = (List.finRange m).drop n := by
    refine List.filter_eq_self.mpr fun i hi => ?_
    obtain ⟨j, hj, rfl⟩ := List.mem_drop_iff_getElem.mp hi
    simp
  conv_rhs => rw [← List.take_append_drop n (List.finRange m), List.filter_append, low, high, List.nil_append]

/-- The first `n` results of a function that may give none are those of the first `n` places with one. -/
theorem take_filterMap {α β : Type} (f : α → Option β) (l : List α) (n : Nat) :
    (l.filterMap f).take n = ((l.filter fun a => (f a).isSome).take n).filterMap f := by
  induction l generalizing n with
  | nil => simp
  | cons a l ih =>
    cases ha : f a with
    | none => simpa [List.filterMap_cons, List.filter_cons, ha] using ih n
    | some b =>
      cases n with
      | zero => simp
      | succ n => simpa [List.filterMap_cons, List.filter_cons, ha] using ih n

theorem State.listed_eq (s : State) :
    s.listed = fun i => (s.entry i).map fun e => ⟨i, e.progress.state, e.plan.tag, e.plan.line, e.progress.due⟩ := by
  funext i
  unfold State.listed
  cases s.entry i <;> rfl

/-- The entries that are not FREE from the starting index upward, at most 16. -/
theorem State.listFrom_eq (s : State) (start : EntryIx) :
    s.listFrom start =
      (((List.finRange 64).filter fun i => decide (start.val ≤ i.val) && (s.entry i).isSome).take 16).filterMap
        s.listed := by
  have used : ∀ i, (s.listed i).isSome = (s.entry i).isSome := fun i => by simp [s.listed_eq]
  unfold State.listFrom
  rw [take_filterMap, drop_finRange, List.filter_filter]
  simp only [used, Bool.and_comm]
  rfl

/-- The continuation index follows the last of 16, when there is one above it (R37). -/
theorem continuation_iff {l : List ListedEntry} (h : l.length ≤ 16) (i : EntryIx) :
    continuation l = some i ↔ l.length = 16 ∧ ∃ e ∈ l.getLast?, e.index.val + 1 = i.val := by
  unfold continuation Config.listLimit
  split
  · next hlt => simp only [reduceCtorEq, false_iff]; omega
  · next hge =>
    have full : l.length = 16 := by omega
    cases hlast : l.getLast? with
    | none => simp
    | some e =>
      have hi := i.isLt
      dsimp only
      split
      · simp [full, Fin.ext_iff]
      · simp only [reduceCtorEq, false_iff, Option.mem_some_iff, exists_eq_left']
        omega

/-- Settles O40: the index, then the table, give the case. -/
theorem entriesRead : Obligations.EntriesRead := by
  intro s seq b
  have short : [b].length ≤ 512 := by simp
  refine ⟨fun hx => ⟨fun hb => ?_, fun i hi => ⟨fun he => ?_, fun e he => ?_⟩⟩, fun hx => ⟨fun hb => ?_, fun hb => ?_⟩⟩
  · exact exec_refused (k := .entryQuery) hx short (entryQueryRequest_error (readIndex_high hb))
  · exact exec_refused (k := .entryQuery) hx short (entryQueryRequest_free (readIndex_of_eq hi) he)
  · exact exec_accepted (k := .entryQuery) (t := s.dequeued) hx short
      (entryQueryRequest_used (readIndex_of_eq hi) he) rfl rfl
  · exact exec_refused (k := .entryList) hx short (entryListRequest_error (readIndex_high hb))
  · have hi : (⟨b.toNat, by omega⟩ : EntryIx).val = b.toNat := rfl
    have listed := s.listFrom_eq ⟨b.toNat, by omega⟩
    have few : (s.listFrom ⟨b.toNat, by omega⟩).length ≤ 16 := List.length_take_le _ _
    rw [s.listed_eq] at listed
    rw [listed] at few
    refine ⟨_, ?_, continuation_iff few⟩
    rw [← listed]
    exact exec_accepted (k := .entryList) (t := s.dequeued) hx short
      (entryListRequest_index (readIndex_of_eq hi)) rfl rfl

end Sys2Proof.Machine
end

section
/-! PROOF. Entry notices (section 3.4) and the due times that the Timeline takes while RUNNING (sections 3.1, 3.2): a single
or leading action, and a trailing one. -/

namespace Sys2Proof.Machine

/-! ### Entry notices (section 3.4) -/

section Notices

variable (n : EntryNotice) (now : Tick) (remaining : Option Quantity)

theorem EntryNotice.merge_fired (late : Bool) :
    n.merge (.fired late) now remaining =
      { n with
        fired := true, late := n.late || late, firedCount := min (n.firedCount + 1) 65535, lastTick := now
        remaining := remaining } := rfl

theorem EntryNotice.merge_missed (k : Nat) :
    n.merge (.missed k) now remaining =
      { n with
        missed := true, missedCount := min (n.missedCount + k) 65535, lastTick := now, remaining := remaining } := rfl

theorem EntryNotice.merge_overrun :
    n.merge .overrun now remaining =
      { n with
        overrun := true, overrunCount := min (n.overrunCount + 1) 65535, lastTick := now
        remaining := remaining } := rfl

/-- Which slot takes the merged notice: with EACH a pending one, with END alone a collecting one, else none (R52). -/
theorem Entry.account_eq (e : Entry) (ev : EntryEvent) :
    e.account ev now remaining =
      { e with
        slot :=
          if e.plan.each then .pending ((e.slot.notice.getD .blank).merge ev now remaining)
          else if e.plan.final then .collecting ((e.slot.notice.getD .blank).merge ev now remaining)
          else e.slot } := rfl

end Notices

/-- Settles O46: the slot by the notify set, its notice by the kind of event. -/
theorem noticesMerge : Obligations.NoticesMerge := by
  intro e now remaining outcome late m
  refine ⟨?_, ?_, ?_, rfl, rfl⟩
  · rw [Entry.account_eq, EntryNotice.merge_fired]
    rfl
  · rw [Entry.account_eq, EntryNotice.merge_missed]
    rfl
  · rw [Entry.account_eq, EntryNotice.merge_overrun]
    rfl

/-! ### The place of an entry that was taken from the list (R24) -/

section Replaced

variable {v : State} {i : EntryIx} {rest : List EntryIx} (hi : i ∉ rest)
include hi

/-- A record with a due time is inserted among the entries that are left. -/
theorem State.putEntry_due {r : Entry} {d : Tick} (hd : r.progress.due = some d) :
    ∃ after, InsertedAt v rest i (distance v.timebase.count d) after ∧
      (v.setDueList rest).putEntry i (some r) = { v.setEntry i (some r) with dueList := after } := by
  obtain ⟨front, back, hlist, hput, hfront, hback⟩ := (v.setDueList rest).putEntry_some (i := i) hd hi
  exact ⟨front ++ i :: back, ⟨front, back, hlist, rfl, hfront, hback⟩, hput⟩

/-- A record without a due time leaves the list to the others. -/
theorem State.putEntry_undue {o : Option Entry} (hd : (o.bind fun r => r.progress.due) = none) :
    (v.setDueList rest).putEntry i o = { v.setEntry i o with dueList := rest } := by
  rw [(v.setDueList rest).putEntry_none hd, State.setDueList_dueList, filter_ne_of_not_mem hi]
  rfl

variable {e : Entry} {left : Quantity} {lead now : Tick} {outcome : FinalOutcome}

/-- With occurrences left the entry stands one period on (R40, R42). -/
theorem State.putEntry_goOn_pending {r : Repeat} (hr : e.plan.rep = some r) (hl : left.positive = true) :
    ∃ after, InsertedAt v rest i (distance v.timebase.count (lead + r.period)) after ∧
      (v.setDueList rest).putEntry i (e.goOn left (e.plan.nextDue lead) outcome now) =
        { v.setEntry i (some { e with progress := .pending (lead + r.period) left }) with dueList := after } := by
  have next : e.plan.nextDue lead = some (lead + r.period) := by simp [Plan.nextDue, hr]
  rw [next, Entry.goOn_pending _ _ hl]
  exact State.putEntry_due hi rfl

variable (hl : left.positive = false)
include hl

/-- With none left and arms left it waits (R44). -/
theorem State.putEntry_goOn_waiting (ha : e.armed = true) :
    (v.setDueList rest).putEntry i (e.goOn left (e.plan.nextDue lead) outcome now) =
      { v.setEntry i (some { e with progress := .waiting }) with dueList := rest } := by
  rw [Entry.goOn_waiting _ _ hl ha]
  exact State.putEntry_undue hi rfl

/-- With neither left its life ends (R45). -/
theorem State.putEntry_goOn_ended (ha : e.armed = false) :
    (v.setDueList rest).putEntry i (e.goOn left (e.plan.nextDue lead) outcome now) =
      { v.setEntry i (e.endLife outcome now (some (.number 0))) with dueList := rest } := by
  rw [Entry.goOn_end _ _ hl ha]
  exact State.putEntry_undue hi (Entry.endLife_due _ _ _ _)

end Replaced

/-! ### A head that is taken (R39) -/

/-- The head is served with the list the heads behind it, which come next. -/
theorem HeadTaken.serveDue {u : State} {i : EntryIx} {rest : List EntryIx} {e : Entry} {due : Tick}
    (h : HeadTaken u i rest e due) (n : Nat) :
    State.serveDue (n + 1) u = State.serveDue n ((u.setDueList rest).serveEntry i) := by
  obtain ⟨hlist, hi, he, hdue, hreached⟩ := h
  have taken : u.dueReached i = true := by
    simpa [State.dueReached, State.dueOf, he, hdue] using hreached
  have left : u.unschedule i = u.setDueList rest := by
    rw [State.unschedule, hlist, List.filter_cons_of_neg (by simp), filter_ne_of_not_mem hi]
  rw [State.serveDue_head hlist taken, left]

section FireDue

variable (s : State) (i : EntryIx) {e : Entry} (due : Tick) (remaining : Quantity)

theorem State.fireDue_single (hw : e.plan.action.width = none) :
    s.fireDue i e due remaining =
      (s.act e.plan.line e.plan.action.leading).putEntry i
        ((e.account (.fired false) s.now (e.eventRemaining (remaining.less 1))).goOn (remaining.less 1)
          (e.plan.nextDue due) .done s.now) := by
  simp only [State.fireDue, hw]

theorem State.fireDue_pulse {w : Tick} (hw : e.plan.action.width = some w) :
    s.fireDue i e due remaining =
      (s.act e.plan.line e.plan.action.leading).putEntry i
        (some { e.account (.fired false) s.now (some (remaining.less 1)) with
          progress := .trailing (due + w) due (remaining.less 1) false }) := by
  simp only [State.fireDue, hw]

end FireDue

/-- Settles O43: a pulse, then a single action with occurrences left, with arms left, with neither. -/
theorem dueActionServed : Obligations.DueActionServed := by
  intro u i rest e due remaining n h hh hp
  have next := h.serveDue n
  obtain ⟨-, hi, he, -, -⟩ := h
  rw [State.serveEntry_pending (s := u.setDueList rest) he hp, if_neg (by simpa [State.halted] using hh)] at next
  refine ⟨fun w hw => ?_, fun hw => ?_⟩
  · rw [State.fireDue_pulse _ i due remaining hw] at next
    obtain ⟨after, inserted, put⟩ := State.putEntry_due (v := u.act e.plan.line e.plan.action.leading) hi
      (r := { e.account (.fired false) u.now (some (remaining.less 1)) with
        progress := .trailing (due + w) due (remaining.less 1) false }) rfl
    exact ⟨after, inserted, next.trans (congrArg _ put)⟩
  · rw [State.fireDue_single _ i due remaining hw] at next
    refine ⟨fun r hr hl => ?_, fun hl ha => ?_, fun hl ha => ?_⟩
    · rw [Entry.eventRemaining_left (.inl hl)] at next
      obtain ⟨after, inserted, put⟩ := State.putEntry_goOn_pending
        (v := u.act e.plan.line e.plan.action.leading) hi (lead := due) (now := u.now) (outcome := .done)
        (e := e.account (.fired false) u.now (some (remaining.less 1))) hr hl
      exact ⟨after, inserted, next.trans (congrArg _ put)⟩
    · rw [Entry.eventRemaining_waiting hl ha] at next
      exact next.trans (congrArg _ (State.putEntry_goOn_waiting (v := u.act e.plan.line e.plan.action.leading)
        (e := e.account (.fired false) u.now none) hi hl ha))
    · rw [Entry.eventRemaining_left (.inr ha)] at next
      exact next.trans (congrArg _ (State.putEntry_goOn_ended (v := u.act e.plan.line e.plan.action.leading)
        (e := e.account (.fired false) u.now (some (remaining.less 1))) hi hl ha))

/-- Settles O44: the cancel flag, then occurrences left, arms left, neither. -/
theorem trailingActionServed : Obligations.TrailingActionServed := by
  intro u i rest e due lead remaining cancelled a n h hh hp ha
  have next := h.serveDue n
  obtain ⟨-, hi, he, -, -⟩ := h
  have acted : (u.setDueList rest).actTrailing e.plan = (u.act e.plan.line a).setDueList rest := by
    rw [State.actTrailing, ha]
    rfl
  rw [State.serveEntry_trailing (s := u.setDueList rest) he hp, if_neg (by simpa [State.halted] using hh),
    acted] at next
  refine ⟨?_, ?_, ?_, ?_⟩
  · rintro rfl
    exact next.trans (congrArg _ (State.putEntry_undue hi (Entry.endLife_due _ _ _ _)))
  · rintro rfl r hr hl
    obtain ⟨after, inserted, put⟩ := State.putEntry_goOn_pending
      (v := u.act e.plan.line a) hi (lead := lead) (now := u.now) (outcome := .done) hr hl
    exact ⟨after, inserted, next.trans (congrArg _ put)⟩
  · rintro rfl hl harmed
    exact next.trans (congrArg _ (State.putEntry_goOn_waiting hi hl harmed))
  · rintro rfl hl harmed
    exact next.trans (congrArg _ (State.putEntry_goOn_ended hi hl harmed))

end Sys2Proof.Machine
end

section
/-! PROOF. Trigger edges (section 3.3): what the offer of an accepted edge makes of one entry. -/

namespace Sys2Proof.Machine

/-! ### The sense and the arms -/

theorem TriggerSense.accepts_iff (sense : TriggerSense) (edge : Edge) :
    sense.accepts edge = true ↔
      sense = .any ∨ (sense = .rise ∧ edge = .rise) ∨ (sense = .fall ∧ edge = .fall) := by
  cases sense <;> cases edge <;> decide

/-- An entry that no due time stands for is not on the Due List (R23). -/
theorem DueListOk.not_mem_of_undue {s : State} (h : DueListOk s) {i : EntryIx} {e : Entry} (he : s.entry i = some e)
    (hd : e.progress.due = none) : i ∉ s.dueList := by
  intro hm
  have listed := (h.2 i).mp hm
  simp [State.dueOf, he, hd] at listed

/-! ### One entry (R47) -/

section Unoffered

variable {s : State} {i : EntryIx} {c : ChanIx} {edge : Edge} {stamp : Tick}

theorem State.offerEdge_free (he : s.entry i = none) : State.offerEdge c edge stamp s i = s := by
  simp only [State.offerEdge, he]

/-- An entry that names another channel, a sense that does not match or another start is left alone. -/
theorem State.offerEdge_unmatched {e : Entry} (he : s.entry i = some e)
    (hn : ∀ sense delay arms, e.plan.start = .onTrigger c sense delay arms → sense.accepts edge = false) :
    State.offerEdge c edge stamp s i = s := by
  simp only [State.offerEdge, he]
  split
  · next ch sense delay arms hs =>
    rw [if_neg]
    rintro ⟨rfl, accepted⟩
    simp [hn sense delay arms hs] at accepted
  · rfl

end Unoffered

section Offered

variable {s : State} {i : EntryIx} {c : ChanIx} {edge : Edge} {e : Entry} {sense : TriggerSense} {delay : Tick}
  {arms : Nat} (stamp : Tick) (he : s.entry i = some e) (hs : e.plan.start = .onTrigger c sense delay arms)
  (ha : sense.accepts edge = true)
include he hs ha

theorem State.offerEdge_waiting (hp : e.progress = .waiting) :
    State.offerEdge c edge stamp s i = if s.halted then s.missTrigger i e else s.serveTrigger i e delay stamp := by
  simp [State.offerEdge, he, hs, ha, hp]

theorem State.offerEdge_overruns {remaining : Quantity} (hr : e.progress.remaining = some remaining) :
    State.offerEdge c edge stamp s i = s.setEntry i (some (e.account .overrun s.now (some remaining))) := by
  cases hp : e.progress <;> simp_all [State.offerEdge, Progress.remaining]

theorem State.offerEdge_retired (hp : e.progress = .retired) : State.offerEdge c edge stamp s i = s := by
  simp [State.offerEdge, he, hs, ha, hp]

end Offered

/-! ### A WAITING entry (R48 to R50) -/

section Waiting

variable {s : State} {i : EntryIx} (hi : i ∉ s.dueList) (e : Entry) {delay stamp : Tick}
include hi

/-- A start that is not reached: PENDING, inserted behind every entry as near (R48). -/
theorem State.serveTrigger_ahead (hr : reached s.now (stamp + delay) = false) :
    ∃ after, InsertedAt s s.dueList i (distance s.now (stamp + delay)) after ∧
      s.serveTrigger i e delay stamp =
        { s.setEntry i (some { e.useArm with progress := .pending (stamp + delay) e.plan.firstRemaining }) with
          dueList := after } := by
  have serves : s.serveTrigger i e delay stamp =
      s.putEntry i (some { e.useArm with progress := .pending (stamp + delay) e.plan.firstRemaining }) := by
    simp [State.serveTrigger, hr]
  rw [serves]
  exact State.putEntry_due (v := s) hi rfl

/-- A start that is reached begins late, accounted late when there is a delay (R49). -/
theorem State.serveTrigger_late (hr : reached s.now (stamp + delay) = true) {k taken : Nat}
    (hc : CatchesUp e.plan s.now (stamp + delay) k taken) :
    BeginsLate s (s.serveTrigger i e delay stamp) i e.useArm (stamp + delay) (decide (delay ≠ 0)) k taken ∧
      (s.serveTrigger i e delay stamp).link = s.link := by
  obtain ⟨hk, ht⟩ := catchesUp_eq hc
  have delayed : decide (0 < delay.toNat) = decide (delay ≠ 0) := by
    refine decide_eq_decide.mpr ?_
    bv_omega
  have begins : s.serveTrigger i e delay stamp =
      s.beginLate i e.useArm (stamp + delay) (decide (delay ≠ 0)) := by
    rw [← delayed]
    simp only [State.serveTrigger, hr, if_true]
  rw [begins]
  exact ⟨State.beginLate_begins hi _ hk ht, (sameOutside_beginLate s i _ _ _).link⟩

/-- While HALTED an arm is used and the trigger is missed; without an arm left the life ends (R50). -/
theorem State.missTrigger_eq :
    s.missTrigger i e =
      s.setEntry i (if e.useArm.armed then some (e.useArm.account (.missed 1) s.now none)
        else (e.useArm.account (.missed 1) s.now none).endLife .missed s.now none) := by
  cases ha : e.useArm.armed with
  | true => simp [State.missTrigger, ha]
  | false =>
    simp only [State.missTrigger, Entry.account_armed, ha, Bool.false_eq_true, if_false]
    exact State.putEntry_undue (v := s) hi (Entry.endLife_due _ _ _ _)

end Waiting

/-- Settles O47: the timebase, then one entry: not matched, WAITING while RUNNING and while HALTED, PENDING, TRAILING. -/
theorem triggerOffered : Obligations.TriggerOffered := by
  intro u c edge stamp
  refine ⟨fun hs => ?_, fun hr => ?_, fun i => ⟨fun hn => ?_, fun e he hm => ?_⟩⟩
  · rw [State.offerTrigger, State.running_eq_false hs]
    rfl
  · rw [State.offerTrigger, if_pos (u.running_iff.mpr hr)]
  · cases he : u.entry i with
    | none => exact State.offerEdge_free he
    | some e =>
      by_cases hm : ∃ sense delay arms, e.plan.start = .onTrigger c sense delay arms ∧ sense.accepts edge = true
      · obtain ⟨sense, delay, arms, hs, ha⟩ := hm
        have retired : e.progress = .retired :=
          (hn e he).resolve_left (not_not.mpr ⟨sense, delay, arms, hs, (sense.accepts_iff edge).mp ha⟩)
        exact State.offerEdge_retired stamp he hs ha retired
      · push Not at hm
        exact State.offerEdge_unmatched he fun sense delay arms hs => by simpa using hm sense delay arms hs
  · obtain ⟨sense, delay, arms, hs, hsense⟩ := hm
    have ha := (sense.accepts_iff edge).mpr hsense
    refine ⟨fun _ delay' _ hs' hp hh hd => ?_, fun hp hh hi => ?_, fun due r hp => ?_, fun due lead r cancelled hp => ?_⟩
    · obtain rfl : delay = delay' := by
        rw [hs] at hs'
        injection hs'
      rw [State.offerEdge_waiting stamp he hs ha hp, if_neg (by simpa [State.halted] using hh)]
      have hi := hd.not_mem_of_undue he (by rw [hp]; rfl)
      exact ⟨State.serveTrigger_ahead hi e, fun hr k taken hc => State.serveTrigger_late hi e hr hc⟩
    · rw [State.offerEdge_waiting stamp he hs ha hp, if_pos (by exact hh), State.missTrigger_eq hi]
      rfl
    · exact State.offerEdge_overruns stamp he hs ha (by rw [hp]; rfl)
    · exact State.offerEdge_overruns stamp he hs ha (by rw [hp]; rfl)

end Sys2Proof.Machine
end

section
/-! PROOF. CANCEL (section 3.5): the entries it names, each ended at once or marked, one after another. -/

namespace Sys2Proof.Machine

/-! ### The body (R57, R181) -/

theorem readCancel_high {b : Byte} (h : 63 < b.toNat) : readCancel [0, b] = .error .value := by
  have out : ¬b.toNat < 64 := by omega
  simp [readCancel, below, out]

theorem readCancel_index {b : Byte} (h : b.toNat < 64) : readCancel [0, b] = .ok (.index ⟨b.toNat, h⟩) := by
  simp [readCancel, below, h]

theorem readCancel_tag (lo hi : Byte) : readCancel [1, lo, hi] = .ok (.tag (hi ++ lo)) := rfl

/-- A selector that is none, or that does not fit the length. -/
theorem readCancel_format {body : List Byte}
    (h : (∃ sel b : Byte, sel ≠ 0 ∧ body = [sel, b]) ∨ ∃ sel lo hi : Byte, sel ≠ 1 ∧ body = [sel, lo, hi]) :
    readCancel body = .error .format := by
  obtain ⟨sel, b, hsel, rfl⟩ | ⟨sel, lo, hi, hsel, rfl⟩ := h <;> simp only [readCancel, if_neg hsel]

/-! ### The entries named (R57, R58) -/

/-- The selector names the entry, live or not. -/
def Selector.names (sel : Selector) (i : EntryIx) (e : Entry) : Bool :=
  match sel with
  | .index j => decide (i = j)
  | .tag t => decide (e.plan.tag = t)

theorem State.matches_eq (s : State) (sel : Selector) (i : EntryIx) :
    s.matches sel i = (s.entry i).any fun e => decide (e.progress ≠ .retired) && sel.names i e := by
  unfold State.matches
  cases s.entry i with
  | none => rfl
  | some e =>
    have live : e.progress.live = decide (e.progress ≠ .retired) := by
      rw [Bool.eq_iff_iff, e.progress.live_iff, decide_eq_true_iff]
    simp only [live]
    rfl

/-! ### One entry (R59, R60) -/

/-- What a cancellation makes of a record. -/
def Entry.cancelled (now : Tick) (e : Entry) : Option Entry :=
  match e.progress with
  | .waiting => e.endLife .cancelled now none
  | .pending _ remaining => e.endLife .cancelled now (some remaining)
  | .trailing due lead remaining _ => some { e with progress := .trailing due lead remaining true }
  | .retired => some e

/-- The place holds an entry that a cancellation ends at once: a live one that is not TRAILING. -/
def State.endsAtOnce (s : State) (i : EntryIx) : Bool :=
  liveEntry (s.entry i) && !decide (entryState (s.entry i) = .trailing)

section CancelEntry

variable (s : State) (i j : EntryIx)

theorem State.setEntry_same {o : Option Entry} (h : s.entry i = o) : s.setEntry i o = s := by
  subst h
  refine State.ext_fields rfl (State.entries_ext fun j => ?_) rfl rfl rfl rfl rfl rfl rfl rfl
  rw [State.entry_setEntry]
  split
  · next hij => rw [hij]
  · rfl

/-- The place takes what the cancellation makes of its record, and an entry that is ended leaves the Due List. -/
theorem State.cancelEntry_eq :
    s.cancelEntry i =
      (s.setEntry i ((s.entry i).bind (Entry.cancelled s.now))).setDueList
        (s.dueList.filter fun j => !(j == i && s.endsAtOnce i)) := by
  have stays (h : s.endsAtOnce i = false) : s.dueList.filter (fun j => !(j == i && s.endsAtOnce i)) = s.dueList := by
    simp [h]
  have leaves (h : s.endsAtOnce i = true) (r : Option Quantity) (e : Entry) :
      s.putEntry i (e.endLife .cancelled s.now r) =
        (s.setEntry i (e.endLife .cancelled s.now r)).setDueList
          (s.dueList.filter fun j => !(j == i && s.endsAtOnce i)) := by
    rw [State.putEntry_none s (Entry.endLife_due _ _ _ _)]
    simp [h]
  cases he : s.entry i with
  | none =>
    rw [stays (by simp [State.endsAtOnce, he, liveEntry])]
    simp only [State.cancelEntry, he]
    exact (s.setEntry_same i he).symm
  | some e =>
    cases hp : e.progress with
    | waiting =>
      simp only [State.cancelEntry, he, hp, Option.bind_some, Entry.cancelled]
      exact leaves (by simp [State.endsAtOnce, he, hp, liveEntry, entryState, Progress.live, Progress.state]) _ e
    | pending due remaining =>
      simp only [State.cancelEntry, he, hp, Option.bind_some, Entry.cancelled]
      exact leaves (by simp [State.endsAtOnce, he, hp, liveEntry, entryState, Progress.live, Progress.state]) _ e
    | trailing due lead remaining marked =>
      rw [stays (by simp [State.endsAtOnce, he, hp, entryState, Progress.state])]
      simp only [State.cancelEntry, he, hp, Option.bind_some, Entry.cancelled]
      rfl
    | retired =>
      rw [stays (by simp [State.endsAtOnce, he, hp, liveEntry, Progress.live])]
      simp only [State.cancelEntry, he, hp, Option.bind_some, Entry.cancelled]
      exact (s.setEntry_same i he).symm

theorem State.entry_cancelEntry :
    (s.cancelEntry i).entry j = if i = j then (s.entry i).bind (Entry.cancelled s.now) else s.entry j := by
  rw [State.cancelEntry_eq, State.entry_setDueList, State.entry_setEntry]

theorem State.dueList_cancelEntry :
    (s.cancelEntry i).dueList = s.dueList.filter fun j => !(j == i && s.endsAtOnce i) := by
  rw [State.cancelEntry_eq, State.setDueList_dueList]

theorem State.lines_cancelEntry : (s.cancelEntry i).lines = s.lines := by
  rw [State.cancelEntry_eq]
  rfl

theorem sameOutside_cancelEntry : SameOutsideTimeline s (s.cancelEntry i) := by
  rw [State.cancelEntry_eq]
  exact (sameOutside_setEntry _ _ _).trans (sameOutside_setDueList _ _)

end CancelEntry

/-! ### The entries named, one after another -/

section CancelAll

variable {l : List EntryIx} (hl : l.Nodup) (s : State)

theorem State.lines_foldl_cancelEntry (l : List EntryIx) (s : State) : (l.foldl State.cancelEntry s).lines = s.lines := by
  induction l generalizing s with
  | nil => rfl
  | cons i l ih => rw [List.foldl_cons, ih, State.lines_cancelEntry]

include hl

theorem State.entry_foldl_cancelEntry (j : EntryIx) :
    (l.foldl State.cancelEntry s).entry j =
      if j ∈ l then (s.entry j).bind (Entry.cancelled s.now) else s.entry j := by
  induction l generalizing s with
  | nil => rfl
  | cons i l ih =>
    obtain ⟨hi, hl⟩ := List.nodup_cons.mp hl
    have same_now : (s.cancelEntry i).now = s.now := congrArg Timebase.count (sameOutside_cancelEntry s i).timebase
    rw [List.foldl_cons, ih hl, State.entry_cancelEntry, same_now]
    by_cases hij : i = j
    · subst hij
      simp [hi]
    · simp [hij, Ne.symm hij]

theorem State.dueList_foldl_cancelEntry :
    (l.foldl State.cancelEntry s).dueList = s.dueList.filter fun j => !(decide (j ∈ l) && s.endsAtOnce j) := by
  induction l generalizing s with
  | nil => simp
  | cons i l ih =>
    obtain ⟨hi, hl⟩ := List.nodup_cons.mp hl
    rw [List.foldl_cons, ih hl, State.dueList_cancelEntry, List.filter_filter]
    refine List.filter_congr fun j _ => ?_
    by_cases hij : j = i
    · subst hij
      simp [hi]
    · have other : (s.cancelEntry i).endsAtOnce j = s.endsAtOnce j := by
        unfold State.endsAtOnce
        rw [State.entry_cancelEntry, if_neg (Ne.symm hij)]
      simp [hij, other]

end CancelAll

/-! ### The request -/

/-- The indices of the live entries that a selector names, in order. -/
def State.named (s : State) (sel : Selector) : List EntryIx := (List.finRange 64).filter (s.matches sel)

/-- The place holds a TRAILING entry. -/
def State.trailingAt (s : State) (i : EntryIx) : Bool := decide (entryState (s.entry i) = .trailing)

theorem length_sub_countP {α : Type} (p : α → Bool) (l : List α) :
    l.length - l.countP p = l.countP fun a => !p a := by
  have total := l.length_eq_countP_add_countP p
  simp only [Bool.not_eq_true, Bool.decide_eq_false] at total
  omega

section Request

variable {s : State} {sel : Selector} {body : List Byte}

theorem State.mem_named {i : EntryIx} : i ∈ s.named sel ↔ s.matches sel i = true := by
  simp [State.named]

theorem State.nodup_named : (s.named sel).Nodup := (List.nodup_finRange 64).filter _

theorem State.countP_named (p : EntryIx → Bool) :
    (s.named sel).countP p = (List.finRange 64).countP fun i => s.matches sel i && p i := by
  simp only [State.named, List.countP_filter, Bool.and_comm]

/-- A live entry that is named is ended at once unless it is TRAILING. -/
theorem State.matches_endsAtOnce (i : EntryIx) :
    (s.matches sel i && s.endsAtOnce i) = (s.matches sel i && !s.trailingAt i) := by
  unfold State.matches State.endsAtOnce State.trailingAt liveEntry
  cases s.entry i with
  | none => rfl
  | some e => cases h : e.progress.live <;> simp [h]

theorem cancelRequest_error {st : Status} (hr : readCancel body = .error st) : cancelRequest body s = refuse st s := by
  simp only [cancelRequest, hr]

variable (hr : readCancel body = .ok sel)
include hr

theorem cancelRequest_none (hn : ∀ i, s.matches sel i = false) : cancelRequest body s = refuse .none s := by
  have unnamed : (List.finRange 64).filter (s.matches sel) = [] := by simp [hn]
  simp [cancelRequest, hr, unnamed]

/-- The answer counts the entries ended at once, and those whose ending waits for their trailing action. -/
theorem cancelRequest_some (hs : ∃ i, s.matches sel i = true) :
    cancelRequest body s =
      accept
        (.cancel ((List.finRange 64).countP fun i => s.matches sel i && !s.trailingAt i)
          ((List.finRange 64).countP fun i => s.matches sel i && s.trailingAt i))
        ((s.named sel).foldl State.cancelEntry s) := by
  have some_named : (s.named sel).isEmpty = false := by
    obtain ⟨i, hi⟩ := hs
    exact List.isEmpty_eq_false_iff_exists_mem.mpr ⟨i, State.mem_named.mpr hi⟩
  rw [← State.countP_named, ← State.countP_named, ← length_sub_countP]
  simp only [cancelRequest, hr]
  exact if_neg (by simpa [State.named] using some_named)

end Request

/-- The entries named take what a cancellation makes of them (R59, R60). -/
theorem State.entry_cancel_named (s : State) (sel : Selector) (i : EntryIx) :
    ((s.named sel).foldl State.cancelEntry s).entry i =
      if s.matches sel i then (s.entry i).bind (Entry.cancelled s.now) else s.entry i := by
  simp only [State.entry_foldl_cancelEntry State.nodup_named, State.mem_named]

/-- The entries named that are not TRAILING leave the Due List (R59). -/
theorem State.dueList_cancel_named (s : State) (sel : Selector) :
    ((s.named sel).foldl State.cancelEntry s).dueList =
      s.dueList.filter fun i => !(s.matches sel i && !s.trailingAt i) := by
  simp only [State.dueList_foldl_cancelEntry State.nodup_named, State.mem_named, Bool.decide_eq_true,
    State.matches_endsAtOnce]

/-- A CANCEL that names an entry, its matched entries and the table after it said in the terms of a caller. -/
theorem exec_cancel_some {s : State} {seq : Byte} {body : List Byte} {sel : Selector}
    (hx : Executes s (RequestKind.cancel.frame seq body)) (hl : body.length ≤ 512) (hr : readCancel body = .ok sel)
    {matched : EntryIx → Bool} (hm : s.matches sel = matched) (hs : ∃ i, matched i = true)
    {entries : Vector (Option Entry) 64}
    (he : ∀ i : EntryIx, entries[i.val] = if matched i then (s.entry i).bind (Entry.cancelled s.now) else s.entry i) :
    exec (.cancel seq body) s =
      .next { s with
        entries := entries
        dueList := s.dueList.filter fun i => !(matched i && !s.trailingAt i)
        link := s.link.answered (RequestKind.cancel.okAnswer seq
          (.cancel ((List.finRange 64).countP fun i => matched i && !s.trailingAt i)
            ((List.finRange 64).countP fun i => matched i && s.trailingAt i))) } := by
  subst hm
  have frame := sameOutside_foldl sameOutside_cancelEntry (s.dequeued.named sel) s.dequeued
  have answered := exec_accepted (k := .cancel) hx hl (cancelRequest_some (s := s.dequeued) hr hs) frame.link frame.hold
  exact answered.trans (congrArg _ (State.ext_fields frame.timebase
    (State.entries_ext fun i => (s.dequeued.entry_cancel_named sel i).trans (he i).symm)
    (s.dequeued.dueList_cancel_named sel) (State.lines_foldl_cancelEntry _ _) frame.halt frame.channels frame.reports
    rfl frame.hold frame.pending))

/-- Settles O41: the reader's refusals; then the selector read, with none named and with some. -/
theorem cancelEndsTheMatched : Obligations.CancelEndsTheMatched := by
  refine ⟨fun s seq body hx => ⟨?_, fun hb => ?_⟩, fun s seq body named hx hb => ?_⟩
  · rintro ⟨b, hb, rfl⟩
    exact exec_refused (k := .cancel) hx (by simp) (cancelRequest_error (readCancel_high hb))
  · have short : body.length ≤ 512 := by
      obtain ⟨sel, b, -, rfl⟩ | ⟨sel, lo, hi, -, rfl⟩ := hb <;> simp
    exact exec_refused (k := .cancel) hx short (cancelRequest_error (readCancel_format hb))
  · obtain ⟨sel, short, hr, hnamed⟩ : ∃ sel, body.length ≤ 512 ∧ readCancel body = .ok sel ∧
        ∀ i e, named i e = sel.names i e := by
      obtain ⟨b, hlt, rfl, hnamed⟩ | ⟨lo, hi, rfl, hnamed⟩ := hb
      · exact ⟨_, by simp, readCancel_index hlt, fun i e => by simp [hnamed, Selector.names, Fin.ext_iff]⟩
      · exact ⟨_, by simp, readCancel_tag lo hi, hnamed⟩
    intro matched trailing
    have hm : s.matches sel = matched := by
      funext i
      rw [State.matches_eq]
      cases he : s.entry i with
      | none => simp [matched, he]
      | some e => simp [matched, he, hnamed]
    refine ⟨fun hn => ?_, fun hs => ?_⟩
    · exact exec_refused (k := .cancel) hx short
        (cancelRequest_none (s := s.dequeued) hr fun i => (congrFun hm i).trans (hn i))
    · refine exec_cancel_some hx short hr hm hs fun i => ?_
      rw [Vector.getElem_ofFn]
      cases s.entry i with
      | none => simp
      | some e => rfl

end Sys2Proof.Machine
end

section
/-! PROOF. TIMELINE-CLEAR (section 3.6): the standing trailing actions in list order, and the number of entries freed. -/

namespace Sys2Proof.Machine

/-! ### The trailing actions performed (R62) -/

/-- The level that clearing the entry at `i` leaves on the line `n`: that of its trailing action, when it is TRAILING, has
one and names the line. -/
def State.clearedLevel (s : State) (n : LineIx) (i : EntryIx) : Option Bool :=
  match s.entry i with
  | none => none
  | some e =>
    match e.progress, e.plan.action with
    | .trailing _ _ _ _, .pulseHigh _ => if e.plan.line = n then some false else none
    | .trailing _ _ _ _, .pulseLow _ => if e.plan.line = n then some true else none
    | _, _ => none

/-- Clearing an entry touches the lines alone. -/
theorem State.clearTrailing_eq (s : State) (i : EntryIx) :
    s.clearTrailing i = { s with lines := (s.clearTrailing i).lines } := by
  unfold State.clearTrailing
  split
  · split
    · exact s.actTrailing_eq _
    · rfl
  · rfl

theorem State.line_clearTrailing {s : State} (hh : s.halted = false) (n : LineIx) (i : EntryIx) :
    (s.clearTrailing i).line n =
      { s.line n with timed := (s.clearedLevel n i).getD (s.line n).timed } := by
  unfold State.clearTrailing State.clearedLevel
  cases he : s.entry i with
  | none => rfl
  | some e =>
    cases hp : e.progress with
    | trailing due lead remaining cancelled =>
      simp only [Progress.isTrailing, hh, hp]
      change (s.actTrailing e.plan).line n = _
      rw [State.line_actTrailing]
      by_cases hn : e.plan.line = n
      · subst hn
        cases ha : e.plan.action <;> simp [Plan.trailed, ha, Action.trailing, LevelAction.apply]
      · cases ha : e.plan.action <;> simp [hn]
    | waiting => simp [Progress.isTrailing, hp]
    | pending due remaining => simp [Progress.isTrailing, hp]
    | retired => simp [Progress.isTrailing, hp]

theorem State.foldl_clearTrailing_eq (l : List EntryIx) (s : State) :
    l.foldl State.clearTrailing s = { s with lines := (l.foldl State.clearTrailing s).lines } := by
  induction l generalizing s with
  | nil => rfl
  | cons i l ih => rw [List.foldl_cons, ih, s.clearTrailing_eq i]

/-- Along a list the last action on a line stands (R62). -/
theorem State.line_foldl_clearTrailing {s : State} (hh : s.halted = false) (n : LineIx) (l : List EntryIx) :
    (l.foldl State.clearTrailing s).line n =
      { s.line n with timed := ((l.filterMap (s.clearedLevel n)).getLast?).getD (s.line n).timed } := by
  induction l generalizing s with
  | nil => rfl
  | cons i l ih =>
    have running : (s.clearTrailing i).halted = false := by
      rw [State.halted_congr (congrArg HaltUnit.causes (s.halt_clearTrailing i)), hh]
    have same : (s.clearTrailing i).clearedLevel n = s.clearedLevel n := by
      rw [s.clearTrailing_eq i]
      rfl
    rw [List.foldl_cons, ih running, same, State.line_clearTrailing hh]
    cases hi : s.clearedLevel n i with
    | none => simp [hi]
    | some level => simp [hi, List.getLast?_cons]

/-! ### The entries freed (R61) -/

theorem State.used_eq (s : State) : 64 - s.entriesIn .free = s.entries.toList.countP Option.isSome := by
  have total := s.entries.toList.length_eq_countP_add_countP (p := Option.isSome)
  have free : s.entriesIn .free = s.entries.toList.countP fun o => decide ¬(o.isSome = true) := by
    refine List.countP_congr fun o _ => ?_
    cases o with
    | none => simp [entryState]
    | some e => cases hp : e.progress <;> simp [entryState, hp, Progress.state]
  rw [Vector.length_toList] at total
  omega

theorem timelineClearRequest_error {s : State} {body : List Byte} (hb : body ≠ []) :
    timelineClearRequest body s = refuse .format s := by
  simp only [timelineClearRequest, readEmpty_ne hb]

theorem timelineClearRequest_clears (s : State) :
    timelineClearRequest [] s =
      accept (.count (s.entries.toList.countP Option.isSome))
        { s with
          entries := Vector.replicate 64 none
          dueList := []
          lines := (s.dueList.foldl State.clearTrailing s).lines } := by
  rw [← s.used_eq]
  simp only [timelineClearRequest, readEmpty]
  rw [State.foldl_clearTrailing_eq s.dueList s]

/-- Settles O42: the body; then the lines, line by line, HALTED and RUNNING. -/
theorem timelineClearFrees : Obligations.TimelineClearFrees := by
  intro s seq body hl hx
  refine ⟨fun hb => exec_refused (k := .timelineClear) hx hl (timelineClearRequest_error hb), ?_⟩
  rintro rfl trailingLevel
  have answered := exec_accepted (k := .timelineClear) hx hl (timelineClearRequest_clears s.dequeued) rfl rfl
  refine answered.trans (congrArg _ (State.ext_fields rfl rfl rfl (State.lines_ext fun n => ?_) rfl rfl rfl rfl rfl rfl))
  change (s.dueList.foldl State.clearTrailing s.dequeued).line n =
    (if s.dequeued.halted then s.lines else Vector.ofFn _)[n.val]
  cases hh : s.dequeued.halted with
  | true =>
    rw [State.foldl_clearTrailing_halted _ hh, if_pos rfl]
    rfl
  | false =>
    rw [State.line_foldl_clearTrailing hh, if_neg Bool.false_ne_true, Vector.getElem_ofFn]
    rfl

end Sys2Proof.Machine
end

section
/-! PROOF. Claimed lines, waited-on channels and the states of entries (sections 2.2, 2.3, 4.5, 6.7): the three conditions
read record by record, the records that may stand in the table, and that the Timeline's operations put no other there. -/

namespace Sys2Proof.Machine

/-! ### The conditions, record by record -/

/-- An ON start on the channel (R18). -/
def Start.IsOn (st : Start) (c : ChanIx) : Prop := ∃ sense delay arms, st = .onTrigger c sense delay arms

/-- The part of R103's test that looks at how far the entry has come: it is WAITING, or it can come to be so again. -/
def Entry.couldWait (e : Entry) : Bool :=
  match e.progress with
  | .waiting => true
  | .pending _ _ => e.armed
  | .trailing _ _ _ cancelled => e.armed && !cancelled
  | .retired => false

theorem Entry.couldWaitOn_iff (e : Entry) (c : ChanIx) :
    e.couldWaitOn c = true ↔ e.plan.start.IsOn c ∧ e.couldWait = true := by
  cases hs : e.plan.start with
  | onTrigger => cases hp : e.progress <;> simp [Entry.couldWaitOn, Entry.couldWait, Start.IsOn, hs, hp]
  | atTime => simp [Entry.couldWaitOn, Start.IsOn, hs]
  | afterDelay => simp [Entry.couldWaitOn, Start.IsOn, hs]

theorem linesOk_iff (s : State) :
    LinesOk s ↔ ∀ i, ∀ e ∈ s.entry i, e.progress ≠ .retired → (s.line e.plan.line).mode = .timed := by
  simp only [LinesOk, s.lineHeld_iff]
  constructor
  · exact fun h i e he hp => h _ ⟨i, e, he, hp, rfl⟩
  · rintro h n ⟨i, e, he, hp, rfl⟩
    exact h i e he hp

theorem triggersOk_iff (s : State) :
    TriggersOk s ↔
      ∀ i, ∀ e ∈ s.entry i, e.couldWait = true → ∀ c, e.plan.start.IsOn c → (s.channel c).setup.mode ≠ .off := by
  simp only [TriggersOk, s.channelHeld_iff, Entry.couldWaitOn_iff]
  constructor
  · exact fun h i e he hw c hc => h c ⟨i, e, he, hc, hw⟩
  · rintro h c ⟨i, e, he, hc, hw⟩
    exact h i e he hw c hc

/-! ### What a change keeps -/

/-- From `s` to `t` each of the three conditions is kept by itself. -/
structure ClaimsKept (s t : State) : Prop where
  lines : LinesOk s → LinesOk t
  triggers : TriggersOk s → TriggersOk t
  entries : EntriesOk s → EntriesOk t

theorem ClaimsKept.refl (s : State) : ClaimsKept s s := ⟨id, id, id⟩

theorem ClaimsKept.trans {s t u : State} (h : ClaimsKept s t) (k : ClaimsKept t u) : ClaimsKept s u :=
  ⟨k.lines ∘ h.lines, k.triggers ∘ h.triggers, k.entries ∘ h.entries⟩

/-- What the conditions look at stands as it did: the entries, the modes of the lines and the modes of the channels. -/
structure SameClaims (s t : State) : Prop where
  entries : t.entries = s.entries
  lines : ∀ n, (t.line n).mode = (s.line n).mode
  channels : ∀ c, (t.channel c).setup.mode = (s.channel c).setup.mode

theorem SameClaims.symm {s t : State} (h : SameClaims s t) : SameClaims t s :=
  ⟨h.entries.symm, fun n => (h.lines n).symm, fun c => (h.channels c).symm⟩

theorem SameClaims.kept {s t : State} (h : SameClaims s t) : ClaimsKept s t := by
  refine ⟨fun k => ?_, fun k => ?_, fun k => ?_⟩
  · rw [linesOk_iff] at k ⊢
    simpa only [State.entry_congr h.entries, h.lines] using k
  · rw [triggersOk_iff] at k ⊢
    simpa only [State.entry_congr h.entries, h.channels] using k
  · simpa only [EntriesOk, State.entry_congr h.entries] using k

/-- With no entry on the table there is nothing to claim a line or wait on a channel. -/
theorem claimsKept_cleared (s : State) {t : State} (h : ∀ i, t.entry i = none) : ClaimsKept s t := by
  have empty : ∀ {p : Entry → Prop}, ∀ i, ∀ e ∈ t.entry i, p e := fun i e he => by simp [h i] at he
  exact ⟨fun _ => (linesOk_iff t).mpr empty, fun _ => (triggersOk_iff t).mpr empty, fun _ => empty⟩

/-! ### The records that may stand in the table -/

/-- The record may stand in the table: each condition that holds of the state holds of the record. -/
structure State.Bears (s : State) (e : Entry) : Prop where
  line : LinesOk s → e.progress ≠ .retired → (s.line e.plan.line).mode = .timed
  trigger : TriggersOk s → e.couldWait = true → ∀ c, e.plan.start.IsOn c → (s.channel c).setup.mode ≠ .off
  allowed : EntriesOk s → e.progressOk = true ∧ e.armsLeft.isSome = e.plan.start.arms.isSome

/-- The record may go on: its line is claimed, its channel watched while arms are left, and only a record started ON has
arms. Nothing is said of how far it has come. -/
structure State.Carries (s : State) (e : Entry) : Prop where
  line : LinesOk s → (s.line e.plan.line).mode = .timed
  trigger : TriggersOk s → e.armed = true → ∀ c, e.plan.start.IsOn c → (s.channel c).setup.mode ≠ .off
  arms : EntriesOk s → e.armsLeft.isSome = e.plan.start.arms.isSome

section Standing

variable {s : State} {i : EntryIx} {e : Entry} (he : s.entry i = some e)
include he

theorem State.bears_entry : s.Bears e :=
  ⟨fun h => (linesOk_iff s).mp h i e he, fun h => (triggersOk_iff s).mp h i e he, fun h => h i e he⟩

/-- A live entry without a cancel flag goes on. -/
theorem State.carries_entry (hp : e.progress ≠ .retired) (hw : e.armed = true → e.couldWait = true) : s.Carries e :=
  ⟨fun h => (State.bears_entry he).line h hp, fun h ha => (State.bears_entry he).trigger h (hw ha),
    fun h => ((State.bears_entry he).allowed h).2⟩

theorem State.carries_waiting (hp : e.progress = .waiting) : s.Carries e :=
  State.carries_entry he (by simp [hp]) (by simp [Entry.couldWait, hp])

theorem State.carries_pending {due : Tick} {r : Quantity} (hp : e.progress = .pending due r) : s.Carries e :=
  State.carries_entry he (by simp [hp]) (by simp [Entry.couldWait, hp])

theorem State.carries_trailing {due lead : Tick} {r : Quantity} (hp : e.progress = .trailing due lead r false) :
    s.Carries e :=
  State.carries_entry he (by simp [hp]) (by simp [Entry.couldWait, hp])

end Standing

/-- What a record goes on with is its plan and its arms. -/
theorem State.Carries.congr {s : State} {e e' : Entry} (h : s.Carries e) (hp : e'.plan = e.plan)
    (ha : e'.armed = true → e.armed = true) (hs : e'.armsLeft.isSome = e.armsLeft.isSome) : s.Carries e' :=
  ⟨fun k => hp ▸ h.line k, fun k w => hp ▸ h.trigger k (ha w), fun k => hs.trans (hp ▸ h.arms k)⟩

theorem SameClaims.carries {s t : State} (h : SameClaims s t) {e : Entry} (k : s.Carries e) : t.Carries e :=
  ⟨fun l => (h.lines _).trans (k.line (h.symm.kept.lines l)),
    fun l ha c hc => (h.channels c).symm ▸ k.trigger (h.symm.kept.triggers l) ha c hc,
    fun l => k.arms (h.symm.kept.entries l)⟩

/-! ### Notices and arms -/

@[simp] theorem Entry.accountMisses_armsLeft (e : Entry) (k : Nat) (now : Tick) (r : Option Quantity) :
    (e.accountMisses k now r).armsLeft = e.armsLeft := by
  unfold Entry.accountMisses
  split <;> rfl

@[simp] theorem Entry.useArm_arms (e : Entry) : e.useArm.armsLeft.isSome = e.armsLeft.isSome := by
  simp [Entry.useArm]

/-- An arm that is left after one is used was left before (R48). -/
theorem Entry.armed_of_useArm {e : Entry} (h : e.useArm.armed = true) : e.armed = true := by
  unfold Entry.armed Entry.useArm at *
  cases ha : e.armsLeft with
  | none => simp [ha] at h
  | some q =>
    cases q with
    | unlimited => rfl
    | number n =>
      simp only [ha, Option.map_some, Quantity.less, Quantity.positive, decide_eq_true_eq] at h ⊢
      omega

theorem Quantity.ofLimit_positive (n : Nat) : (Quantity.ofLimit n).positive = true := by
  unfold Quantity.ofLimit
  split
  · rfl
  · next h => simpa [Quantity.positive] using Nat.pos_of_ne_zero h

theorem Plan.firstRemaining_positive (p : Plan) : p.firstRemaining.positive = true := by
  unfold Plan.firstRemaining
  split
  · exact Quantity.ofLimit_positive _
  · rfl

/-- The arms of a new entry fit its start (R21, R27). -/
theorem Plan.newEntry_arms (p : Plan) (progress : Progress) :
    (p.newEntry progress).armsLeft.isSome = (p.newEntry progress).plan.start.arms.isSome := by
  simp [Plan.newEntry]

section Going

variable {s : State} {e : Entry} (h : s.Carries e)
include h

theorem State.Carries.account (ev : EntryEvent) (now : Tick) (r : Option Quantity) : s.Carries (e.account ev now r) :=
  h.congr rfl id rfl

theorem State.Carries.accountMisses (k : Nat) (now : Tick) (r : Option Quantity) : s.Carries (e.accountMisses k now r) :=
  h.congr (by simp) (by simp) (by simp)

theorem State.Carries.useArm : s.Carries e.useArm := h.congr rfl Entry.armed_of_useArm (by simp)

theorem State.Carries.pending (due : Tick) {r : Quantity} (hr : r.positive = true) :
    s.Bears { e with progress := .pending due r } :=
  ⟨fun k _ => h.line k, fun k w => h.trigger k w, fun k => ⟨hr, h.arms k⟩⟩

theorem State.Carries.trailing (due lead : Tick) (r : Quantity) :
    s.Bears { e with progress := .trailing due lead r false } :=
  ⟨fun k _ => h.line k, fun k w => h.trigger k (Bool.and_eq_true_iff.mp w).1, fun k => ⟨rfl, h.arms k⟩⟩

/-- A record with arms left was started ON, so it may wait again (R44). -/
theorem State.Carries.waiting (ha : e.armed = true) : s.Bears { e with progress := .waiting } := by
  refine ⟨fun k _ => h.line k, fun k _ => h.trigger k ha, fun k => ⟨?_, h.arms k⟩⟩
  have left : e.armsLeft.isSome = true := by
    unfold Entry.armed at ha
    cases hq : e.armsLeft with
    | none => simp [hq] at ha
    | some q => rfl
  exact Bool.and_eq_true_iff.mpr ⟨(h.arms k).symm.trans left, ha⟩

end Going

/-- A RETIRED record claims nothing (R59, R71, R103). -/
theorem State.bears_endLife {s : State} {e : Entry} (h : EntriesOk s → e.armsLeft.isSome = e.plan.start.arms.isSome)
    (outcome : FinalOutcome) (now : Tick) (r : Option Quantity) : ∀ r' ∈ e.endLife outcome now r, s.Bears r' := by
  unfold Entry.endLife
  split
  · rintro _ ⟨⟩
    exact ⟨fun _ hp => absurd rfl hp, fun _ hw => by simp [Entry.couldWait] at hw, fun k => ⟨rfl, h k⟩⟩
  · rintro _ ⟨⟩

theorem State.Carries.goOn {s : State} {e : Entry} (h : s.Carries e) (r : Quantity) (due : Option Tick)
    (outcome : FinalOutcome) (now : Tick) : ∀ r' ∈ e.goOn r due outcome now, s.Bears r' := by
  unfold Entry.goOn
  split
  · next hr =>
    rintro _ ⟨⟩
    exact h.pending _ hr
  · unfold Entry.endSeries
    split
    · next ha =>
      rintro _ ⟨⟩
      exact h.waiting ha
    · exact State.bears_endLife h.arms _ _ _

/-- A TRAILING entry whose trailing action is done (R42, R82). -/
theorem State.bears_afterTrailing {s : State} {i : EntryIx} {e : Entry} (he : s.entry i = some e) {due lead : Tick}
    {r : Quantity} {c : Bool} (hp : e.progress = .trailing due lead r c) (now : Tick) :
    ∀ r' ∈ e.afterTrailing lead r c now, s.Bears r' := by
  unfold Entry.afterTrailing
  cases c with
  | true => exact State.bears_endLife (fun k => ((State.bears_entry he).allowed k).2) _ _ _
  | false => exact (State.carries_trailing he hp).goOn _ _ _ _

/-! ### Writes of the state -/

section Writes

variable {o s : State} (h : ClaimsKept o s)
include h

theorem ClaimsKept.same {t : State} (k : SameClaims s t) : ClaimsKept o t := h.trans k.kept

theorem ClaimsKept.setLink (l : Link) : ClaimsKept o (s.setLink l) := h.same ⟨rfl, fun _ => rfl, fun _ => rfl⟩

theorem ClaimsKept.setReports (q : ReportQueue) : ClaimsKept o (s.setReports q) :=
  h.same ⟨rfl, fun _ => rfl, fun _ => rfl⟩

theorem ClaimsKept.setHalt (u : HaltUnit) : ClaimsKept o (s.setHalt u) := h.same ⟨rfl, fun _ => rfl, fun _ => rfl⟩

theorem ClaimsKept.setTimebase (t : Timebase) : ClaimsKept o (s.setTimebase t) :=
  h.same ⟨rfl, fun _ => rfl, fun _ => rfl⟩

theorem ClaimsKept.setDueList (l : List EntryIx) : ClaimsKept o (s.setDueList l) :=
  h.same ⟨rfl, fun _ => rfl, fun _ => rfl⟩

/-- A channel that keeps its mode. -/
theorem ClaimsKept.setChannel (c : ChanIx) {ch : Channel} (hm : ch.setup.mode = (s.channel c).setup.mode) :
    ClaimsKept o (s.setChannel c ch) := by
  refine h.same ⟨rfl, fun _ => rfl, fun d => ?_⟩
  rw [State.channel_setChannel]
  split
  · next hcd => rw [hm, hcd]
  · rfl

theorem ClaimsKept.setEntry (i : EntryIx) {e : Option Entry} (he : ∀ r ∈ e, s.Bears r) :
    ClaimsKept o (s.setEntry i e) := by
  have each : ∀ {p : Entry → Prop}, (∀ j, ∀ r ∈ s.entry j, p r) → (∀ r ∈ e, p r) →
      ∀ j, ∀ r ∈ (s.setEntry i e).entry j, p r := by
    intro p hs hr j
    rw [State.entry_setEntry]
    split
    · exact hr
    · exact hs j
  refine h.trans ⟨fun k => ?_, fun k => ?_, fun k => ?_⟩
  · exact (linesOk_iff _).mpr (each ((linesOk_iff s).mp k) fun r hr => (he r hr).line k)
  · exact (triggersOk_iff _).mpr (each ((triggersOk_iff s).mp k) fun r hr => (he r hr).trigger k)
  · exact each k fun r hr => (he r hr).allowed k

theorem ClaimsKept.putEntry (i : EntryIx) {e : Option Entry} (he : ∀ r ∈ e, s.Bears r) :
    ClaimsKept o (s.putEntry i e) := by
  rw [State.putEntry_eq]
  exact (h.setEntry i he).setDueList _

end Writes

theorem ClaimsKept.foldl {α : Type} {f : State → α → State}
    (hf : ∀ {o u : State} (a : α), ClaimsKept o u → ClaimsKept o (f u a)) (l : List α) {o s : State}
    (h : ClaimsKept o s) : ClaimsKept o (l.foldl f s) := by
  induction l generalizing s with
  | nil => exact h
  | cons a l ih => exact ih (hf a h)

theorem State.bears_some {s : State} {e : Entry} (h : s.Bears e) : ∀ r ∈ some e, s.Bears r := by
  rintro r ⟨⟩
  exact h

/-- A new notice leaves a record what it was. -/
theorem State.Bears.congr {s : State} {e e' : Entry} (h : s.Bears e) (hp : e'.plan = e.plan)
    (hq : e'.progress = e.progress) (ha : e'.armsLeft = e.armsLeft) : s.Bears e' := by
  obtain ⟨p, q, a, slot⟩ := e
  obtain ⟨p', q', a', slot'⟩ := e'
  subst hp hq ha
  exact ⟨h.line, h.trigger, h.allowed⟩

/-! ### The Timeline's operations -/

theorem State.act_same (s : State) (n : LineIx) (a : LevelAction) : SameClaims s (s.act n a) := by
  refine ⟨rfl, fun m => ?_, fun _ => rfl⟩
  rw [State.line_act]
  split
  · next hnm => rw [hnm]
  · rfl

theorem State.actTrailing_same (s : State) (p : Plan) : SameClaims s (s.actTrailing p) := by
  unfold State.actTrailing
  split
  · exact s.act_same _ _
  · exact ⟨rfl, fun _ => rfl, fun _ => rfl⟩

section Timeline

variable {o s : State} (h : ClaimsKept o s)
include h

theorem ClaimsKept.missDue (i : EntryIx) {e : Entry} (he : s.Carries e) (due : Tick) (r : Quantity) :
    ClaimsKept o (s.missDue i e due r) := h.putEntry i ((he.account _ _ _).goOn _ _ _ _)

theorem ClaimsKept.fireDue (i : EntryIx) {e : Entry} (he : s.Carries e) (due : Tick) (r : Quantity) :
    ClaimsKept o (s.fireDue i e due r) := by
  have acted := s.act_same e.plan.line e.plan.action.leading
  have record := fun shown => (acted.carries he).account (.fired false) s.now shown
  unfold State.fireDue
  dsimp only
  split
  · exact (h.same acted).putEntry i ((record _).goOn _ _ _ _)
  · exact (h.same acted).putEntry i (State.bears_some ((record _).trailing _ _ _))

theorem ClaimsKept.serveEntry (i : EntryIx) : ClaimsKept o (s.serveEntry i) := by
  unfold State.serveEntry
  split
  · next e he =>
    split
    · next hp =>
      split
      · exact h.missDue i (State.carries_pending he hp) _ _
      · exact h.fireDue i (State.carries_pending he hp) _ _
    · next hp =>
      dsimp only
      split
      · exact h.putEntry i (State.bears_afterTrailing he hp _)
      · have acted := s.actTrailing_same e.plan
        exact (h.same acted).putEntry i (State.bears_afterTrailing ((State.entry_congr acted.entries i).trans he) hp _)
    · exact h
  · exact h

theorem ClaimsKept.serveDue (n : Nat) : ClaimsKept o (State.serveDue n s) := by
  induction n generalizing s with
  | zero => exact h
  | succ n ih =>
    unfold State.serveDue
    split
    · exact h
    · split
      · exact ih ((h.setDueList _).serveEntry _)
      · exact h

theorem ClaimsKept.advance : ClaimsKept o s.advance := (h.setTimebase _).serveDue _

theorem ClaimsKept.beginLate (i : EntryIx) {e : Entry} (he : s.Carries e) (start : Tick) (late : Bool) :
    ClaimsKept o (s.beginLate i e start late) := by
  have acted := s.act_same e.plan.line e.plan.action.leading
  have trailed := (s.act e.plan.line e.plan.action.leading).actTrailing_same e.plan
  have record := fun k shown shown' =>
    ((acted.carries he).account (.fired late) s.now shown).accountMisses k s.now shown'
  unfold State.beginLate
  dsimp only
  split
  · exact (h.same acted).putEntry i ((record _ _ _).goOn _ _ _ _)
  · split
    · exact ((h.same acted).same trailed).putEntry i ((trailed.carries (record _ _ _)).goOn _ _ _ _)
    · exact (h.same acted).putEntry i (State.bears_some ((record _ _ _).trailing _ _ _))

theorem ClaimsKept.beginMissed (i : EntryIx) {e : Entry} (he : s.Carries e) (start : Tick) :
    ClaimsKept o (s.beginMissed i e start) := h.putEntry i ((he.accountMisses _ _ _).goOn _ _ _ _)

theorem ClaimsKept.countTrailingDone (i : EntryIx) : ClaimsKept o (s.countTrailingDone i) := by
  unfold State.countTrailingDone
  split
  · next e he =>
    split
    · next hp => exact h.putEntry i (State.bears_afterTrailing he hp _)
    · exact h
  · exact h

/-- The entry into HALTED moves levels, not modes (R67). -/
theorem ClaimsKept.enterHalted : ClaimsKept o s.enterHalted := by
  refine ClaimsKept.foldl (fun i hu => hu.countTrailingDone i) _ (h.same ⟨rfl, fun n => ?_, fun _ => rfl⟩)
  have forced : ∀ l : OutLine, l.forceSafe.mode = l.mode := by
    intro l
    unfold OutLine.forceSafe
    split <;> rfl
  simpa [State.line] using forced _

theorem ClaimsKept.addCause (c : Causes) : ClaimsKept o (s.addCause c) := by
  rcases s.addCause_cases c with ⟨-, e⟩ | ⟨-, -, e⟩ | ⟨-, -, e⟩ <;> rw [e]
  · exact h
  · exact h.setHalt _
  · exact (h.setHalt _).enterHalted

theorem ClaimsKept.cancelEntry (i : EntryIx) : ClaimsKept o (s.cancelEntry i) := by
  unfold State.cancelEntry
  split
  · exact h
  · next e he =>
    have stands := State.bears_entry he
    have ended := fun r => State.bears_endLife (fun k => (stands.allowed k).2) .cancelled s.now r
    split
    · exact h.putEntry i (ended _)
    · exact h.putEntry i (ended _)
    · next hp =>
      refine h.setEntry i (State.bears_some ⟨fun k _ => stands.line k (by simp [hp]), fun _ hw => ?_, fun k => ?_⟩)
      · simp [Entry.couldWait] at hw
      · exact ⟨rfl, (stands.allowed k).2⟩
    · exact h

section Trigger

variable {i : EntryIx} {e : Entry} (he : s.entry i = some e) (hp : e.progress = .waiting)
include he hp

theorem ClaimsKept.serveTrigger (delay stamp : Tick) : ClaimsKept o (s.serveTrigger i e delay stamp) := by
  have served := (State.carries_waiting he hp).useArm
  unfold State.serveTrigger
  dsimp only
  split
  · exact h.beginLate i served _ _
  · exact h.putEntry i (State.bears_some (served.pending _ (Plan.firstRemaining_positive _)))

theorem ClaimsKept.missTrigger : ClaimsKept o (s.missTrigger i e) := by
  have missed := (State.carries_waiting he hp).useArm.account (.missed 1) s.now none
  unfold State.missTrigger
  dsimp only
  split
  · next ha =>
    exact h.setEntry i (State.bears_some ((missed.waiting ha).congr rfl hp rfl))
  · exact h.putEntry i (State.bears_endLife missed.arms _ _ _)

end Trigger

theorem ClaimsKept.offerEdge (c : ChanIx) (edge : Edge) (stamp : Tick) (i : EntryIx) :
    ClaimsKept o (State.offerEdge c edge stamp s i) := by
  unfold State.offerEdge
  split
  · exact h
  · next e he =>
    have overrun : ∀ r, ClaimsKept o (s.setEntry i (some (e.account .overrun s.now r))) :=
      fun r => h.setEntry i (State.bears_some ((State.bears_entry he).congr rfl rfl rfl))
    split
    · split
      · split
        · next hp =>
          split
          · exact h.missTrigger he hp
          · exact h.serveTrigger he hp _ _
        · exact overrun _
        · exact overrun _
        · exact h
      · exact h
    · exact h

theorem ClaimsKept.offerTrigger (c : ChanIx) (edge : Edge) (stamp : Tick) :
    ClaimsKept o (s.offerTrigger c edge stamp) := by
  unfold State.offerTrigger
  split
  · exact ClaimsKept.foldl (fun i hu => hu.offerEdge c edge stamp i) _ h
  · exact h

/-- An entry notice is admitted: its slot is emptied, and a RETIRED entry leaves the table (R46, R55). -/
theorem ClaimsKept.admitEntry (i : EntryIx) : ClaimsKept o (s.admitEntry i) := by
  unfold State.admitEntry
  split
  · next e he =>
    split
    · refine ClaimsKept.setReports (h.setEntry i ?_) _
      split
      · rintro _ ⟨⟩
      · exact State.bears_some ((State.bears_entry he).congr rfl rfl rfl)
    · exact h
  · exact h

/-- A plan that has passed the checks of PLACE names a TIMED line and a channel that is not OFF (R27, R71, R101). -/
theorem ClaimsKept.placeAt (i : EntryIx) {p : Plan} (hm : (s.line p.line).mode = .timed)
    (ho : s.triggerOff p = false) : ClaimsKept o (s.placeAt i p).2 := by
  have on : ∀ c, p.start.IsOn c → (s.channel c).setup.mode ≠ .off := by
    rintro c ⟨sense, delay, arms, hs⟩
    simpa [State.triggerOff, hs] using ho
  have carries : ∀ q, s.Carries (p.newEntry q) := fun q => ⟨fun _ => hm, fun _ _ => on, fun _ => p.newEntry_arms q⟩
  unfold State.placeAt
  split
  · next hs =>
    have armed : (p.newEntry .waiting).armed = true := by
      simp [Entry.armed, Plan.newEntry, hs, Start.arms, Quantity.ofLimit_positive]
    exact h.putEntry i (State.bears_some ((carries .waiting).waiting armed))
  · exact h.putEntry i (State.bears_some ((carries .waiting).pending _ p.firstRemaining_positive))
  · split
    · dsimp only
      split
      · exact h.beginMissed i (carries _) _
      · exact h.beginLate i (carries _) _ _
    · exact h.putEntry i (State.bears_some ((carries .waiting).pending _ p.firstRemaining_positive))

end Timeline

end Sys2Proof.Machine
end

section
/-! PROOF. Every command and every period keeps the claims of lines, the channels waited on and the states of entries: only
LINE-SETUP changes the mode of a line and only CHANNEL-SETUP that of a channel, and both are refused while an entry relies on
it (R71, R103). -/

namespace Sys2Proof.Machine

/-! ### Input channels and STOP (chapters 5 and 6) -/

section Events

variable {o s : State} (h : ClaimsKept o s)
include h

theorem ClaimsKept.journal (c : ChanIx) (r : Record) : ClaimsKept o (s.journal c r) := by
  unfold State.journal
  split <;> exact h.setChannel c rfl

theorem ClaimsKept.captureEdge (c : ChanIx) (edge : Edge) (stamp : Tick) : ClaimsKept o (s.captureEdge c edge stamp) := by
  refine ClaimsKept.journal (h.setChannel c ?_) c _
  rfl

theorem ClaimsKept.distribute (c : ChanIx) (edge : Edge) (stamp : Tick) : ClaimsKept o (s.distribute c edge stamp) := by
  unfold State.distribute
  split
  · exact h
  · split
    · refine ClaimsKept.offerTrigger ?_ c edge stamp
      split
      · exact h.captureEdge c edge stamp
      · exact h
    · exact h
  · exact ClaimsKept.offerTrigger (h.setChannel c (by rfl)) c edge stamp

theorem ClaimsKept.acceptEdge (c : ChanIx) (stamp : Tick) : ClaimsKept o (s.acceptEdge c stamp) :=
  ClaimsKept.distribute (h.setChannel c (by rfl)) c _ stamp

theorem ClaimsKept.rawTransition (c : ChanIx) : ClaimsKept o (s.rawTransition c) := by
  unfold State.rawTransition
  dsimp only
  split
  · exact ClaimsKept.acceptEdge (h.setChannel c (by rfl)) c _
  · exact h.setChannel c rfl

theorem ClaimsKept.restartReferences : ClaimsKept o s.restartReferences :=
  h.same ⟨rfl, fun _ => rfl, fun c => by simp [State.restartReferences]⟩

theorem ClaimsKept.returnBatches (reports : List Report) : ClaimsKept o (s.returnBatches reports) :=
  h.same ⟨rfl, fun _ => rfl, fun c => by simp [State.returnBatches, State.channel, Channel.takeBack]⟩

theorem ClaimsKept.acceptStop : ClaimsKept o s.acceptStop := by
  unfold State.acceptStop
  dsimp only
  split
  · refine ClaimsKept.setHalt ?_ _
    split
    · exact (h.setHalt _).addCause _
    · exact h.setHalt _
  · exact h.setHalt _

theorem ClaimsKept.reportTimerExpires : ClaimsKept o s.reportTimerExpires := by
  unfold State.reportTimerExpires
  dsimp only
  split
  · exact h.setReports _
  · split
    · exact (h.setReports _).addCause _
    · exact h.setReports _

/-! ### The link (chapters 9 and 10) -/

theorem ClaimsKept.transmitChoice : ClaimsKept o s.transmitChoice := by
  obtain ⟨-, he, -, hl, -, hc, -⟩ := s.transmitChoice_frame
  exact h.same ⟨he, fun n => by rw [State.line_congr hl], fun c => by unfold State.channel; rw [hc]⟩

theorem ClaimsKept.offerFrame (f : Frame) : ClaimsKept o (s.offerFrame f) := by
  unfold State.offerFrame
  split <;> exact h.setLink _

theorem ClaimsKept.receive (value : Byte) (stopBit : Bool) : ClaimsKept o (s.receive value stopBit) := by
  obtain ⟨l, hl⟩ := s.receive_onlyLink value stopBit
  exact hl ▸ h.setLink l

end Events

/-! ### Device reset (sections 10.5, 10.6) -/

theorem claimsKept_beginReset (o s : State) (cause : ResetCause) : ClaimsKept o (s.beginReset cause) :=
  claimsKept_cleared o (by simp [State.entry, State.beginReset])

theorem claimsKept_endReset (o s : State) (cause : ResetCause) : ClaimsKept o (s.endReset cause) := by
  have fresh : ClaimsKept o (s.afterReset cause) := claimsKept_cleared o (by simp [State.entry, State.afterReset])
  unfold State.endReset
  refine ClaimsKept.transmitChoice ?_
  split
  · exact fresh.addCause _
  · exact fresh

section Freed

variable {o s : State} (h : ClaimsKept o s)
include h

theorem ClaimsKept.frameEnds : ClaimsKept o s.frameEnds := by
  unfold State.frameEnds
  split
  · exact h.transmitChoice
  · split
    · exact claimsKept_beginReset _ _ _
    · refine ClaimsKept.transmitChoice ?_
      split
      · exact h.setLink _
      · exact (h.setLink _).setReports _

/-! ### Admission (section 8.2) -/

theorem ClaimsKept.admitItem (item : Ready) : ClaimsKept o (s.admitItem item) := by
  cases item with
  | halt =>
    change ClaimsKept o s.admitHalt
    unfold State.admitHalt
    split
    · exact (h.setHalt _).setReports _
    · exact h
  | entry i => exact h.admitEntry i
  | level c =>
    change ClaimsKept o (s.admitLevel c)
    unfold State.admitLevel
    split
    · exact ClaimsKept.setReports (h.setChannel c (by rfl)) _
    · exact h
  | batch c => exact ClaimsKept.setReports (h.setChannel c (by rfl)) _

theorem ClaimsKept.admitOne : ClaimsKept o s.admitOne := by
  unfold State.admitOne
  split
  · split
    · exact (h.admitItem _).transmitChoice
    · exact h
  · exact h

end Freed

/-! ### Requests -/

/-- A handler that keeps the three conditions. -/
def Handler.KeepsClaims (f : Handler) : Prop := ∀ (body : List Byte) (s : State), ClaimsKept s (f body s).2

theorem Handler.keepsClaims_of_reads {f : Handler} (hf : ∀ body s, (f body s).2 = s) : f.KeepsClaims := by
  intro body s
  rw [hf]
  exact .refl s

theorem keepsClaims_statusRequest : Handler.KeepsClaims statusRequest := by
  intro body s
  unfold statusRequest
  split
  · exact .refl s
  · dsimp only [accept]
    split
    · exact (ClaimsKept.refl s).setLink _
    · exact .refl s

theorem keepsClaims_restartRequest : Handler.KeepsClaims restartRequest := by
  intro body s
  unfold restartRequest
  split
  · exact .refl s
  · exact (ClaimsKept.refl s).setLink _

theorem keepsClaims_ackRequest : Handler.KeepsClaims ackRequest := by
  intro body s
  unfold ackRequest
  split
  · exact .refl s
  · split
    · exact (ClaimsKept.refl s).setReports _
    · split <;> exact .refl s

theorem keepsClaims_reportsOnRequest : Handler.KeepsClaims reportsOnRequest := by
  intro body s
  unfold reportsOnRequest
  split
  · exact .refl s
  · split
    · exact .refl s
    · exact (ClaimsKept.refl s).setReports _

theorem keepsClaims_linkSetupRequest : Handler.KeepsClaims linkSetupRequest := by
  intro body s
  unfold linkSetupRequest
  split
  · exact .refl s
  · exact (ClaimsKept.refl s).setReports _

theorem keepsClaims_linkResetRequest : Handler.KeepsClaims linkResetRequest := by
  intro body s
  unfold linkResetRequest
  split
  · exact .refl s
  · exact (((ClaimsKept.refl s).returnBatches _).setReports _).setLink _

theorem keepsClaims_timeSetupRequest : Handler.KeepsClaims timeSetupRequest := by
  intro body s
  unfold timeSetupRequest
  split
  · exact .refl s
  · split
    · exact .refl s
    · exact (ClaimsKept.refl s).setTimebase _

theorem keepsClaims_timeSetRequest : Handler.KeepsClaims timeSetRequest := by
  intro body s
  unfold timeSetRequest
  split
  · exact .refl s
  · split
    · exact .refl s
    · exact ((ClaimsKept.refl s).setTimebase _).restartReferences

theorem keepsClaims_timeRunRequest : Handler.KeepsClaims timeRunRequest := by
  intro body s
  unfold timeRunRequest
  split
  · exact .refl s
  · split
    · exact .refl s
    · exact ((ClaimsKept.refl s).setTimebase _).restartReferences

theorem keepsClaims_timeStopRequest : Handler.KeepsClaims timeStopRequest := by
  intro body s
  unfold timeStopRequest
  split
  · exact .refl s
  · split
    · exact (ClaimsKept.refl s).setTimebase _
    · exact .refl s

/-- PLACE tests the line and the trigger channel of the plan (R71, R101). -/
theorem keepsClaims_placeRequest : Handler.KeepsClaims placeRequest := by
  intro body s
  unfold placeRequest
  split
  · exact .refl s
  · next p _ =>
    split
    · exact .refl s
    · next hd =>
      have timed : (s.line p.line).mode = .timed := by
        cases hm : (s.line p.line).mode with
        | direct => exact absurd hm hd
        | timed => rfl
      split
      · exact .refl s
      · next ho =>
        split
        · exact .refl s
        · split
          · exact .refl s
          · exact (ClaimsKept.refl s).placeAt _ timed (by simpa using ho)

theorem keepsClaims_cancelRequest : Handler.KeepsClaims cancelRequest := by
  intro body s
  unfold cancelRequest
  split
  · exact .refl s
  · dsimp only
    split
    · exact .refl s
    · exact ClaimsKept.foldl (fun i hu => hu.cancelEntry i) _ (.refl s)

theorem keepsClaims_timelineClearRequest : Handler.KeepsClaims timelineClearRequest := by
  intro body s
  unfold timelineClearRequest
  split
  · exact .refl s
  · exact claimsKept_cleared s (by simp [accept, State.entry])

theorem OutLine.withSafe_mode (l : OutLine) (safe halted : Bool) : (l.withSafe safe halted).mode = l.mode := by
  unfold OutLine.withSafe OutLine.forceSafe
  split
  · split <;> rfl
  · rfl

theorem OutLine.withMode_mode (l : OutLine) (mode : LineMode) (halted : Bool) : (l.withMode mode halted).mode = mode := by
  unfold OutLine.withMode
  cases hl : l.mode <;> cases mode <;> simp [hl]

/-- A claimed line is TIMED and stays so, for LINE-SETUP refuses to make it DIRECT (R71). -/
theorem keepsClaims_lineSetupRequest : Handler.KeepsClaims lineSetupRequest := by
  intro body s
  unfold lineSetupRequest
  split
  · exact .refl s
  · next n mode safe _ =>
    split
    · exact .refl s
    · next hn =>
      refine ⟨fun k m hm => ?_, id, id⟩
      have claimed : s.lineHeld m = true := hm
      have timed := k m claimed
      change ((s.setLine n _).line m).mode = .timed
      rw [State.line_setLine]
      split
      · next hnm =>
        subst hnm
        rw [OutLine.withMode_mode]
        cases mode with
        | direct => exact absurd ⟨rfl, timed, claimed⟩ hn
        | timed => rfl
      · exact timed

theorem State.line_writeDirect_mode (s : State) (mask values : Levels) (n : LineIx) :
    ((s.writeDirect mask values).line n).mode = (s.line n).mode := by
  simp only [State.writeDirect, State.line, Vector.getElem_ofFn]
  split <;> rfl

theorem keepsClaims_lineWriteRequest : Handler.KeepsClaims lineWriteRequest := by
  intro body s
  unfold lineWriteRequest
  split
  · exact .refl s
  · split
    · exact .refl s
    · split
      · exact .refl s
      · exact (ClaimsKept.refl s).same ⟨rfl, s.line_writeDirect_mode _ _, fun _ => rfl⟩

theorem keepsClaims_haltRequest : Handler.KeepsClaims haltRequest := by
  intro body s
  unfold haltRequest
  split
  · exact .refl s
  · exact (ClaimsKept.refl s).addCause _

theorem keepsClaims_resumeRequest : Handler.KeepsClaims resumeRequest := by
  intro body s
  unfold resumeRequest
  split
  · exact .refl s
  · split
    · split
      · exact .refl s
      · exact (ClaimsKept.refl s).setHalt _
    · exact .refl s

theorem keepsClaims_stopSetupRequest : Handler.KeepsClaims stopSetupRequest := by
  intro body s
  unfold stopSetupRequest
  split
  · exact .refl s
  · dsimp only [accept]
    split
    · exact ((ClaimsKept.refl s).setHalt _).addCause _
    · exact (ClaimsKept.refl s).setHalt _

/-- A channel waited on is not OFF and stays so, for CHANNEL-SETUP refuses to make it OFF (R103). -/
theorem keepsClaims_channelSetupRequest : Handler.KeepsClaims channelSetupRequest := by
  intro body s
  unfold channelSetupRequest
  split
  · exact .refl s
  · next c new _ =>
    split
    · exact .refl s
    · next hn =>
      refine ⟨id, fun k d hd => ?_, id⟩
      have waited : s.channelHeld d = true := hd
      change ((s.setChannel c _).channel d).setup.mode ≠ .off
      rw [State.channel_setChannel]
      split
      · next hcd =>
        subst hcd
        intro (off : new.mode = .off)
        simp [State.setupHeld, off, waited] at hn
      · exact k d waited

theorem keepsClaims_channelQueryRequest : Handler.KeepsClaims channelQueryRequest := by
  intro body s
  unfold channelQueryRequest
  split
  · exact .refl s
  · dsimp only [accept]
    split
    · exact (ClaimsKept.refl s).setChannel _ rfl
    · exact .refl s

theorem Channel.flush_setup (ch : Channel) : ch.flush.setup = ch.setup := by
  unfold Channel.flush
  split <;> rfl

theorem keepsClaims_flushRequest : Handler.KeepsClaims flushRequest := by
  intro body s
  unfold flushRequest
  split
  · exact .refl s
  · exact ClaimsKept.foldl (fun c hu => hu.setChannel c (by rw [Channel.flush_setup])) _ (.refl s)

/-- Every request's handler; HELLO, TIME-READ, ENTRY-QUERY, ENTRY-LIST and LINES-READ only read. -/
theorem keepsClaims_handlerFor (k : RequestKind) : (handlerFor k).KeepsClaims := by
  cases k with
  | hello => exact Handler.keepsClaims_of_reads helloRequest_reads
  | status => exact keepsClaims_statusRequest
  | restart => exact keepsClaims_restartRequest
  | ack => exact keepsClaims_ackRequest
  | reportsOn => exact keepsClaims_reportsOnRequest
  | linkSetup => exact keepsClaims_linkSetupRequest
  | linkReset => exact keepsClaims_linkResetRequest
  | timeSetup => exact keepsClaims_timeSetupRequest
  | timeSet => exact keepsClaims_timeSetRequest
  | timeRun => exact keepsClaims_timeRunRequest
  | timeStop => exact keepsClaims_timeStopRequest
  | timeRead => exact Handler.keepsClaims_of_reads timeReadRequest_reads
  | place => exact keepsClaims_placeRequest
  | entryQuery => exact Handler.keepsClaims_of_reads entryQueryRequest_reads
  | entryList => exact Handler.keepsClaims_of_reads entryListRequest_reads
  | cancel => exact keepsClaims_cancelRequest
  | timelineClear => exact keepsClaims_timelineClearRequest
  | lineSetup => exact keepsClaims_lineSetupRequest
  | lineWrite => exact keepsClaims_lineWriteRequest
  | linesRead => exact Handler.keepsClaims_of_reads linesReadRequest_reads
  | halt => exact keepsClaims_haltRequest
  | resume => exact keepsClaims_resumeRequest
  | stopSetup => exact keepsClaims_stopSetupRequest
  | channelSetup => exact keepsClaims_channelSetupRequest
  | channelQuery => exact keepsClaims_channelQueryRequest
  | flush => exact keepsClaims_flushRequest

theorem keepsClaims_handlerOf (kind : Byte) : (handlerOf kind).KeepsClaims := by
  unfold handlerOf
  split
  · exact keepsClaims_handlerFor _
  · exact Handler.keepsClaims_of_reads fun _ _ => rfl

section Requests

variable {o s : State} (h : ClaimsKept o s) {f : Handler} (hf : f.KeepsClaims)
include h hf

theorem ClaimsKept.takeHead (g : Frame) : ClaimsKept o (s.takeHead f g) := by
  refine ClaimsKept.transmitChoice ?_
  unfold State.executeFrame
  split
  · exact (h.setLink _).setLink _
  · exact ((h.setLink _).trans (hf g.body _)).setLink _

theorem ClaimsKept.requestStep (g : Frame) : ClaimsKept o (requestStep f g s) := by
  have served : ∀ {u : State}, ClaimsKept o u → ClaimsKept o (if u.headIs g then u.takeHead f g else u) := by
    intro u hu
    split
    · exact hu.takeHead hf g
    · exact hu
  unfold Machine.requestStep
  split
  · exact h
  · split
    · exact h.setLink _
    · refine served ?_
      split
      · exact h
      · exact h.offerFrame g

end Requests

/-! ### The base clock (chapter 1, section 9.3) -/

section Periods

variable {o s : State} (h : ClaimsKept o s)
include h

theorem ClaimsKept.internalTick : ClaimsKept o s.internalTick := by
  unfold State.internalTick
  split
  · exact (h.setTimebase _).advance
  · exact h

theorem ClaimsKept.cntRise : ClaimsKept o s.cntRise := by
  unfold State.cntRise
  split
  · exact h.advance
  · exact h

theorem ClaimsKept.prescalePeriod : ClaimsKept o s.prescalePeriod := by
  unfold State.prescalePeriod
  split
  · split
    · exact h.internalTick
    · exact h.setTimebase _
  · exact h

theorem ClaimsKept.cntPeriod : ClaimsKept o s.cntPeriod := by
  unfold State.cntPeriod
  dsimp only
  split
  · exact (h.setTimebase _).cntRise
  · exact h.setTimebase _

theorem ClaimsKept.stopPeriod : ClaimsKept o s.stopPeriod := by
  unfold State.stopPeriod
  split
  · split
    · exact h
    · exact h.setHalt _
  · split
    · exact h.setHalt _
    · split
      · exact h.acceptStop
      · exact h.setHalt _

theorem ClaimsKept.inputPeriod (c : ChanIx) : ClaimsKept o (s.inputPeriod c) := by
  unfold State.inputPeriod
  dsimp only
  split
  · split
    · exact h
    · exact h.rawTransition c
  · split
    · exact h.setChannel c rfl
    · split
      · exact h.acceptEdge c _
      · exact h.setChannel c rfl

theorem ClaimsKept.rxPeriod : ClaimsKept o s.rxPeriod := by
  unfold State.rxPeriod
  dsimp only
  split
  · split
    · exact h.setLink _
    · exact h
  · split <;> exact h.setLink _
  · split
    · split <;> exact h.setLink _
    · split
      · exact h.setLink _
      · exact (h.setLink _).receive _ _

theorem ClaimsKept.stepGap : ClaimsKept o s.stepGap := by
  unfold State.stepGap
  split <;> exact h.setLink _

theorem ClaimsKept.stepReportTimer : ClaimsKept o s.stepReportTimer := by
  unfold State.stepReportTimer
  split
  · exact h.reportTimerExpires
  · exact h.setReports _

theorem ClaimsKept.stepLinger (c : ChanIx) : ClaimsKept o (s.stepLinger c) := by
  unfold State.stepLinger
  split <;> exact h.setChannel c rfl

theorem ClaimsKept.msPeriod : ClaimsKept o s.msPeriod := by
  unfold State.msPeriod
  split
  · exact ClaimsKept.foldl (fun c hu => hu.stepLinger c) _ (h.setTimebase _).stepGap.stepReportTimer
  · exact h.setTimebase _

theorem ClaimsKept.txPeriod : ClaimsKept o s.txPeriod := by
  unfold State.txPeriod
  split
  · exact h.transmitChoice
  · split
    · exact h.frameEnds
    · exact h.setLink _

theorem ClaimsKept.serveRequest : ClaimsKept o s.serveRequest := by
  unfold State.serveRequest
  split
  · split
    · exact h.takeHead (keepsClaims_handlerOf _) _
    · exact h
  · exact h

theorem ClaimsKept.basePeriod : ClaimsKept o s.basePeriod := by
  unfold State.basePeriod
  split
  · unfold State.holdPeriod
    split
    · exact claimsKept_endReset _ _ _
    · exact h.same ⟨rfl, fun _ => rfl, fun _ => rfl⟩
  · have sampled := ClaimsKept.foldl (fun c hu => hu.inputPeriod c) (List.finRange 16) h.prescalePeriod.cntPeriod.stopPeriod
    exact sampled.rxPeriod.msPeriod.txPeriod.serveRequest.admitOne

end Periods

/-! ### Every command and every step -/

section Commands

variable {s t : State}

theorem claimsKept_command (k : RequestKind) (seq : Byte) (body : List Byte)
    (he : exec (k.command seq body) s = .next t) : ClaimsKept s t := by
  rw [exec_command] at he
  cases he
  exact (ClaimsKept.refl s).requestStep (keepsClaims_handlerFor k) _

theorem claimsKept_exec {c : Instr} (he : exec c s = .next t) : ClaimsKept s t := by
  have h := ClaimsKept.refl s
  cases c with
  | hello seq body => exact claimsKept_command .hello seq body he
  | status seq body => exact claimsKept_command .status seq body he
  | restart seq body => exact claimsKept_command .restart seq body he
  | unknown kind seq body => cases he; exact h.requestStep (keepsClaims_handlerOf kind) _
  | answerCacheResend kind seq body => cases he; exact h.requestStep (keepsClaims_handlerOf kind) _
  | ack seq body => exact claimsKept_command .ack seq body he
  | reportsOn seq body => exact claimsKept_command .reportsOn seq body he
  | linkSetup seq body => exact claimsKept_command .linkSetup seq body he
  | linkReset seq body => exact claimsKept_command .linkReset seq body he
  | timeSetup seq body => exact claimsKept_command .timeSetup seq body he
  | timeSet seq body => exact claimsKept_command .timeSet seq body he
  | timeRun seq body => exact claimsKept_command .timeRun seq body he
  | timeStop seq body => exact claimsKept_command .timeStop seq body he
  | timeRead seq body => exact claimsKept_command .timeRead seq body he
  | place seq body => exact claimsKept_command .place seq body he
  | entryQuery seq body => exact claimsKept_command .entryQuery seq body he
  | entryList seq body => exact claimsKept_command .entryList seq body he
  | cancel seq body => exact claimsKept_command .cancel seq body he
  | timelineClear seq body => exact claimsKept_command .timelineClear seq body he
  | lineSetup seq body => exact claimsKept_command .lineSetup seq body he
  | lineWrite seq body => exact claimsKept_command .lineWrite seq body he
  | linesRead seq body => exact claimsKept_command .linesRead seq body he
  | halt seq body => exact claimsKept_command .halt seq body he
  | resume seq body => exact claimsKept_command .resume seq body he
  | stopSetup seq body => exact claimsKept_command .stopSetup seq body he
  | channelSetup seq body => exact claimsKept_command .channelSetup seq body he
  | channelQuery seq body => exact claimsKept_command .channelQuery seq body he
  | flush seq body => exact claimsKept_command .flush seq body he
  | internalTick => cases he; exact h.internalTick
  | cntRisingEdge =>
    cases he
    split
    · exact h
    · exact (h.setTimebase _).cntRise
  | rawTransition c =>
    cases he
    split
    · exact h
    · exact h.rawTransition c
  | glitch c =>
    cases he
    split
    · exact h.setChannel c rfl
    · split
      · exact h
      · exact h.setChannel c rfl
  | edgeAccepted c =>
    cases he
    split
    · exact ClaimsKept.acceptEdge (h.setChannel c (by rfl)) c _
    · exact h
  | stopWindowOpen =>
    cases he
    split
    · exact h
    · exact h.setHalt _
  | stopGlitch =>
    cases he
    split
    · exact h.setHalt _
    · exact h
  | stopLevelAccepted =>
    cases he
    split
    · exact (h.setHalt _).acceptStop
    · exact h
  | lingerExpiry c =>
    cases he
    split
    · exact h.setChannel c rfl
    · exact h
  | reportTimerExpiry =>
    cases he
    split
    · exact h.reportTimerExpires.transmitChoice
    · exact h
  | admission => cases he; exact h.admitOne
  | rxCharacter value stopBit =>
    cases he
    split
    · exact h
    · exact h.receive value stopBit
  | gapAbort =>
    cases he
    split
    · exact h
    · exact h.setLink _
  | txFrameEnd => cases he; exact h.frameEnds
  | powerOn => cases he; exact claimsKept_beginReset _ _ _
  | resetPin =>
    cases he
    split
    · split
      · exact h
      · exact claimsKept_beginReset _ _ _
    · exact claimsKept_beginReset _ _ _
  | resetEnd rate1 rate0 stop inputs =>
    cases he
    split
    · exact claimsKept_endReset _ _ _
    · exact h

theorem claimsKept_step (hs : step s = .next t) : ClaimsKept s t := by
  unfold step at hs
  split at hs
  · next c rest _ =>
    have ready : ClaimsKept s (s.setPending rest) := (ClaimsKept.refl s).same ⟨rfl, fun _ => rfl, fun _ => rfl⟩
    exact ready.trans (claimsKept_exec hs)
  · cases hs
    exact (ClaimsKept.refl s).basePeriod

end Commands

/-- Settles O10: each operation keeps each of the three conditions, so every command and every period does. -/
theorem claimsAndEntriesKept : Obligations.ClaimsAndEntriesKept := by
  refine ⟨fun s t hl ht hs => ?_, fun s t he hs => (claimsKept_step hs).entries he⟩
  have kept := claimsKept_step hs
  exact ⟨kept.lines hl, kept.triggers ht⟩

end Sys2Proof.Machine
end

section
/-! PROOF. The Output Stage's requests (section 4.5): LINE-SETUP and LINE-WRITE, each refused or executed with the whole next
state. -/

namespace Sys2Proof.Machine

/-! ### The bodies (R69, R72) -/

theorem below_of_eq {n : Nat} {b : Byte} {i : Fin n} (h : i.val = b.toNat) : below n b = some i := by
  have hb : b.toNat < n := h ▸ i.isLt
  rw [below, dif_pos hb]
  exact congrArg some (Fin.ext h.symm)

theorem below_of_le {n : Nat} {b : Byte} (h : n ≤ b.toNat) : below n b = none := dif_neg (by omega)

/-- A line mode code of 0 or 1 (Table 11-2). -/
theorem LineMode.ofCode_of_le {b : Byte} (h : b.toNat ≤ 1) :
    LineMode.ofCode b = some (if b = 0 then .direct else .timed) := by
  have code : b = 0 ∨ b = 1 := by bv_omega
  rcases code with rfl | rfl <;> rfl

theorem LineMode.ofCode_of_lt {b : Byte} (h : 1 < b.toNat) : LineMode.ofCode b = none := by
  have h0 : b ≠ 0 := by bv_omega
  have h1 : b ≠ 1 := by bv_omega
  rw [LineMode.ofCode, if_neg h0, if_neg h1]

/-- A level of 0 or 1 (R181). -/
theorem levelOf_of_le {b : Byte} (h : b.toNat ≤ 1) : levelOf b = some (decide (b = 1)) := by
  have code : b = 0 ∨ b = 1 := by bv_omega
  rcases code with rfl | rfl <;> rfl

theorem levelOf_of_lt {b : Byte} (h : 1 < b.toNat) : levelOf b = none := by
  have h0 : b ≠ 0 := by bv_omega
  have h1 : b ≠ 1 := by bv_omega
  rw [levelOf, flagOf, if_neg h0, if_neg h1]

theorem readLineSetup_value {l m v : Byte} (h : 15 < l.toNat ∨ 1 < m.toNat ∨ 1 < v.toNat) :
    readLineSetup [l, m, v] = .error .value := by
  simp only [readLineSetup]
  split
  · next hn hm hv =>
    rcases h with h | h | h
    · simp [below_of_le h] at hn
    · simp [LineMode.ofCode_of_lt h] at hm
    · simp [levelOf_of_lt h] at hv
  · rfl

theorem readLineSetup_ok {l m v : Byte} {n : LineIx} (hn : n.val = l.toNat) (hm : m.toNat ≤ 1) (hv : v.toNat ≤ 1) :
    readLineSetup [l, m, v] = .ok (n, if m = 0 then .direct else .timed, decide (v = 1)) := by
  simp only [readLineSetup, below_of_eq hn, LineMode.ofCode_of_le hm, levelOf_of_le hv]

theorem readLineWrite_length {body : List Byte} (h : body.length ≠ 4) : readLineWrite body = .error .format := by
  unfold readLineWrite
  split
  · exact absurd rfl h
  · rfl

/-! ### The line after LINE-SETUP (R70) -/

/-- The level of the line's pin after LINE-SETUP: it moves to a new safe level while HALTED, and not otherwise. -/
def OutLine.pinUnder (l : OutLine) (safe halted : Bool) : Bool := if halted then safe else l.driven halted

/-- The line once the safe level is stored and the mode applied. -/
def OutLine.setUp (l : OutLine) (mode : LineMode) (safe halted : Bool) : OutLine :=
  (l.withSafe safe halted).withMode mode halted

/-- Each of the four pairs of old and new mode, RUNNING and HALTED (R70). -/
theorem OutLine.setUp_eq (l : OutLine) (mode : LineMode) (safe halted : Bool) :
    l.setUp mode safe halted =
      { mode := mode, safe := safe
        direct := if mode = .direct ∧ l.mode = .timed then l.pinUnder safe halted else l.direct
        timed :=
          if l.mode = .timed then (if halted then safe else l.timed)
          else if mode = .timed then l.pinUnder safe halted
          else l.timed } := by
  obtain ⟨old, _, direct, timed⟩ := l
  cases old <;> cases mode <;> cases halted <;> rfl

theorem OutLine.setUp_mode (l : OutLine) (mode : LineMode) (safe halted : Bool) : (l.setUp mode safe halted).mode = mode :=
  OutLine.withMode_mode _ _ _

theorem OutLine.setUp_safe (l : OutLine) (mode : LineMode) (safe halted : Bool) :
    (l.setUp mode safe halted).safe = safe := by
  rw [OutLine.setUp_eq]

/-- The pin of a RUNNING line stays, for the new master's level is the level that is driven. -/
theorem OutLine.setUp_driven (l : OutLine) (mode : LineMode) (safe halted : Bool) :
    (l.setUp mode safe halted).driven halted = l.pinUnder safe halted := by
  rw [OutLine.setUp_eq]
  obtain ⟨old, _, direct, timed⟩ := l
  cases old <;> cases mode <;> cases halted <;> rfl

/-! ### The handlers, case by case -/

section Handlers

variable {s : State} {body : List Byte}

theorem lineSetupRequest_error {st : Status} (hr : readLineSetup body = .error st) :
    lineSetupRequest body s = refuse st s := by
  simp only [lineSetupRequest, hr]

section LineSetup

variable {n : LineIx} {mode : LineMode} {safe : Bool} (hr : readLineSetup body = .ok (n, mode, safe))
include hr

theorem lineSetupRequest_claimed (hc : mode = .direct ∧ (s.line n).mode = .timed ∧ LineClaimed s n) :
    lineSetupRequest body s = refuse .state s := by
  rw [← s.lineHeld_iff] at hc
  simp only [lineSetupRequest, hr, if_pos hc]

theorem lineSetupRequest_free (hc : ¬(mode = .direct ∧ (s.line n).mode = .timed ∧ LineClaimed s n)) :
    lineSetupRequest body s =
      accept (.lineSetup mode safe ((s.line n).pinUnder safe s.halted))
        (s.setLine n ((s.line n).setUp mode safe s.halted)) := by
  rw [← s.lineHeld_iff] at hc
  have applied : lineSetupRequest body s =
      let l := (s.line n).setUp mode safe s.halted
      accept (.lineSetup l.mode l.safe (l.driven s.halted)) (s.setLine n l) := by
    simp only [lineSetupRequest, hr, if_neg hc]
    rfl
  simp only [applied, OutLine.setUp_mode, OutLine.setUp_safe, OutLine.setUp_driven]

end LineSetup

theorem lineWriteRequest_error {st : Status} (hr : readLineWrite body = .error st) :
    lineWriteRequest body s = refuse st s := by
  simp only [lineWriteRequest, hr]

/-- The mask names a TIMED line (R72). -/
theorem State.maskTimed_iff (s : State) (mask : Levels) :
    s.maskTimed mask = true ↔ ∃ n : LineIx, mask.getLsbD n.val = true ∧ (s.line n).mode = .timed := by
  simp [State.maskTimed]

section LineWrite

variable {mask values : Levels} (hr : readLineWrite body = .ok (mask, values))
include hr

theorem lineWriteRequest_halted (hh : s.halted = true) : lineWriteRequest body s = refuse .halted s := by
  simp only [lineWriteRequest, hr, hh, if_true]

theorem lineWriteRequest_timed (hh : s.halted = false) (hm : s.maskTimed mask = true) :
    lineWriteRequest body s = refuse .line s := by
  simp [lineWriteRequest, hr, hh, hm]

theorem lineWriteRequest_direct (hh : s.halted = false) (hm : s.maskTimed mask = false) :
    lineWriteRequest body s =
      accept (.lineWrite (s.writeDirect mask values).drivenLevels) (s.writeDirect mask values) := by
  simp [lineWriteRequest, hr, hh, hm]

end LineWrite

end Handlers

/-! ### The statements -/

/-- Settles O48: the reader's answer, then the test of R71, give the case. -/
theorem lineSetupApplied : Obligations.LineSetupApplied := by
  intro s seq lb mb vb hx
  have short : ([lb, mb, vb] : List Byte).length ≤ 512 := by simp
  refine ⟨fun hv => exec_refused (k := .lineSetup) hx short (lineSetupRequest_error (readLineSetup_value hv)), ?_⟩
  intro n hn hm hv old halted safe mode driven
  have read := readLineSetup_ok hn hm hv
  refine ⟨fun hd ht hc => ?_, fun hc => ?_⟩
  · exact exec_refused (k := .lineSetup) hx short (lineSetupRequest_claimed (s := s.dequeued) read ⟨hd, ht, hc⟩)
  · have answered := exec_accepted (k := .lineSetup) hx short (lineSetupRequest_free (s := s.dequeued) read hc) rfl rfl
    refine answered.trans ?_
    rw [OutLine.setUp_eq]
    rfl

/-- Settles O49: the body, then HALTED, then the modes of the lines named, give the case. -/
theorem lineWriteSets : Obligations.LineWriteSets := by
  intro s seq body hl hx
  refine ⟨fun hb => exec_refused (k := .lineWrite) hx hl (lineWriteRequest_error (readLineWrite_length hb)), ?_⟩
  rintro m0 m1 v0 v1 rfl mask values
  have read : readLineWrite [m0, m1, v0, v1] = .ok (mask, values) := rfl
  refine ⟨fun hh => ?_, fun hh ht => ?_, fun hh hd => ?_⟩
  · exact exec_refused (k := .lineWrite) hx hl (lineWriteRequest_halted read hh)
  · exact exec_refused (k := .lineWrite) hx hl
      (lineWriteRequest_timed (s := s.dequeued) read hh ((State.maskTimed_iff s mask).mpr ht))
  · have direct : s.maskTimed mask = false := by
      rw [Bool.eq_false_iff, Ne, State.maskTimed_iff]
      rintro ⟨n, hn, ht⟩
      simp [hd n hn] at ht
    have answered :=
      exec_accepted (k := .lineWrite) hx hl (lineWriteRequest_direct (s := s.dequeued) read hh direct) rfl rfl
    exact answered

end Sys2Proof.Machine
end

section
/-! PROOF. The entry into HALTED (section 5.4): the trailing actions are counted done along the Due List, and each entry dealt
with stands on the list behind every entry as near. -/

namespace Sys2Proof.Machine

/-! ### The record that the entry into HALTED leaves (R82) -/

/-- The record at a place once its trailing action, when it is TRAILING, is counted done. -/
def State.haltedRecord (s : State) (i : EntryIx) : Option Entry :=
  match s.entry i with
  | none => none
  | some e =>
    match e.progress with
    | .trailing _ lead remaining cancelled => e.afterTrailing lead remaining cancelled s.now
    | _ => some e

theorem State.haltedRecord_congr {s t : State} (hn : t.now = s.now) {i : EntryIx} (he : t.entry i = s.entry i) :
    t.haltedRecord i = s.haltedRecord i := by
  unfold State.haltedRecord
  rw [hn, he]

/-- The two things that counting a trailing action done can be, with the record it leaves. -/
theorem State.countTrailingDone_record (s : State) (i : EntryIx) :
    (entryState (s.entry i) = .trailing ∧ s.countTrailingDone i = s.putEntry i (s.haltedRecord i)) ∨
      (entryState (s.entry i) ≠ .trailing ∧ s.haltedRecord i = s.entry i ∧ s.countTrailingDone i = s) := by
  unfold State.countTrailingDone State.haltedRecord
  cases he : s.entry i with
  | none => exact .inr ⟨by simp [entryState], rfl, rfl⟩
  | some e => cases hp : e.progress <;> simp [entryState, Progress.state, hp]

theorem State.entry_countTrailingDone (s : State) (i j : EntryIx) :
    (s.countTrailingDone i).entry j = if i = j then s.haltedRecord i else s.entry j := by
  rcases s.countTrailingDone_record i with ⟨-, heq⟩ | ⟨-, hrecord, heq⟩ <;> rw [heq]
  · exact s.entry_putEntry i j _
  · split
    · next hij => rw [hrecord, hij]
    · rfl

/-- An entry that is not on the Due List is not TRAILING, so it keeps its record (R23). -/
theorem DueListOk.haltedRecord_unlisted {s : State} (h : DueListOk s) {i : EntryIx} (hi : i ∉ s.dueList) :
    s.haltedRecord i = s.entry i := by
  rw [h.2 i, State.dueOf] at hi
  unfold State.haltedRecord
  cases he : s.entry i with
  | none => rfl
  | some e => cases hp : e.progress <;> simp_all [Progress.due]

/-! ### The order of the list (R24, R82) -/

/-- `i` stands ahead of `j` on a list ordered by the distances `d`; of two as near, the one that was not inserted anew
(`redone`), else the one with the lower position `pos`. -/
def StandsAhead (d : EntryIx → Nat) (redone : EntryIx → Prop) (pos : EntryIx → Nat) (i j : EntryIx) : Prop :=
  d i < d j ∨ (d i = d j ∧ ((¬redone i ∧ redone j) ∨ ((redone i ↔ redone j) ∧ pos i < pos j)))

theorem StandsAhead.le {d : EntryIx → Nat} {redone : EntryIx → Prop} {pos : EntryIx → Nat} {i j : EntryIx}
    (h : StandsAhead d redone pos i j) : d i ≤ d j := by
  rcases h with h | ⟨h, -⟩ <;> omega

theorem StandsAhead.congr {d d' : EntryIx → Nat} {redone redone' : EntryIx → Prop} {pos : EntryIx → Nat} {i j : EntryIx}
    (h : StandsAhead d redone pos i j) (hi : d' i = d i) (hj : d' j = d j) (ri : redone' i ↔ redone i)
    (rj : redone' j ↔ redone j) : StandsAhead d' redone' pos i j := by
  unfold StandsAhead
  rwa [hi, hj, ri, rj]

/-- An entry inserted anew stands behind those as near, whether they kept their places or were dealt with before it. -/
theorem pairwise_insertDue_ahead {d : EntryIx → Nat} {redone : EntryIx → Prop} {pos : EntryIx → Nat} {i : EntryIx}
    (hi : redone i) {l : List EntryIx} (hpos : ∀ j ∈ l, redone j → pos j < pos i)
    (hl : l.Pairwise (StandsAhead d redone pos)) : (insertDue d i l).Pairwise (StandsAhead d redone pos) := by
  induction l with
  | nil => simp [insertDue]
  | cons j rest ih =>
    obtain ⟨hj, hrest⟩ := List.pairwise_cons.mp hl
    by_cases h : d j ≤ d i
    · rw [insertDue, if_pos h]
      refine List.pairwise_cons.mpr ⟨fun k hk => ?_, ih (fun k hk => hpos k (by simp [hk])) hrest⟩
      rcases (mem_insertDue d i k rest).mp hk with rfl | hk
      · rcases h.lt_or_eq with near | tie
        · exact .inl near
        · by_cases hr : redone j
          · exact .inr ⟨tie, .inr ⟨iff_of_true hr hi, hpos j (by simp) hr⟩⟩
          · exact .inr ⟨tie, .inl ⟨hr, hi⟩⟩
      · exact hj k hk
    · rw [insertDue, if_neg h]
      refine List.pairwise_cons.mpr ⟨fun k hk => .inl ?_, hl⟩
      rcases List.mem_cons.mp hk with rfl | hk
      · omega
      · exact lt_of_lt_of_le (by omega) (hj k hk).le

theorem pairwise_idxOf {l : List EntryIx} (h : l.Nodup) : l.Pairwise fun i j => l.idxOf i < l.idxOf j := by
  rw [List.pairwise_iff_getElem]
  intro m n hm hn hmn
  rwa [h.idxOf_getElem, h.idxOf_getElem]

theorem idxOf_lt_of_mem_front {front back : List EntryIx} {i j : EntryIx} (hj : j ∈ front) (hi : i ∉ front) :
    (front ++ i :: back).idxOf j < (front ++ i :: back).idxOf i := by
  rw [List.idxOf_append_of_mem hj, List.idxOf_append_of_notMem hi]
  exact Nat.lt_add_right _ (List.idxOf_lt_length_of_mem hj)

/-! ### Along the list -/

/-- `i` is an entry that was TRAILING in `s` and is one of those dealt with. -/
def State.Redone (s : State) (done : List EntryIx) (i : EntryIx) : Prop :=
  i ∈ done ∧ entryState (s.entry i) = .trailing

/-- `u` is the state on the way from `s` into HALTED with the entries of `done` dealt with. -/
structure State.HaltedUpTo (s u : State) (done : List EntryIx) : Prop where
  now : u.now = s.now
  record : ∀ j, u.entry j = if j ∈ done then s.haltedRecord j else s.entry j
  sorted : s.dueList.Pairwise (fun i j => s.dueDistance i ≤ s.dueDistance j) →
    u.dueList.Pairwise (StandsAhead u.dueDistance (s.Redone done) s.dueList.idxOf)

theorem State.redone_snoc (s : State) (done : List EntryIx) {i j : EntryIx}
    (h : i ≠ j ∨ entryState (s.entry i) ≠ .trailing) : s.Redone (done ++ [i]) j ↔ s.Redone done j := by
  unfold State.Redone
  by_cases hij : i = j
  · subst hij
    simp [h.resolve_left (by simp)]
  · simp [Ne.symm hij]

/-- At first the list is ordered by distance, and entries as near by their places on it. -/
theorem State.haltedUpTo_nil {s u : State} (hn : u.now = s.now) (he : ∀ j, u.entry j = s.entry j)
    (hl : u.dueList = s.dueList) (hs : s.dueList.Nodup) : s.HaltedUpTo u [] := by
  refine ⟨hn, by simpa using he, fun sorted => ?_⟩
  rw [hl]
  refine (sorted.and (pairwise_idxOf hs)).imp fun {i j} ⟨near, pos⟩ => ?_
  rw [← State.dueDistance_congr (t := s) hn (he i), ← State.dueDistance_congr (t := s) hn (he j)] at near
  rcases near.lt_or_eq with near | tie
  · exact .inl near
  · exact .inr ⟨tie, .inr ⟨by simp [State.Redone], pos⟩⟩

section Snoc

variable {s u : State} {done rest : List EntryIx} {i : EntryIx} (hl : s.dueList = done ++ i :: rest) (fresh : i ∉ done)
include hl fresh

/-- A TRAILING entry leaves its place on the list and is inserted anew, when it has a due time again. -/
theorem State.putEntry_standsAhead (e : Option Entry) (ht : entryState (s.entry i) = .trailing)
    (h : u.dueList.Pairwise (StandsAhead u.dueDistance (s.Redone done) s.dueList.idxOf)) :
    (u.putEntry i e).dueList.Pairwise
      (StandsAhead (u.putEntry i e).dueDistance (s.Redone (done ++ [i])) s.dueList.idxOf) := by
  have others : (u.dueList.filter fun j => !(j == i)).Pairwise
      (StandsAhead (u.putEntry i e).dueDistance (s.Redone (done ++ [i])) s.dueList.idxOf) := by
    refine (h.filter _).imp_of_mem fun {j k} hj hk ahead => ?_
    have hij : i ≠ j := fun hij => by simp [hij] at hj
    have hik : i ≠ k := fun hik => by simp [hik] at hk
    exact ahead.congr (u.dueDistance_putEntry_ne hij e) (u.dueDistance_putEntry_ne hik e)
      (s.redone_snoc done (.inl hij)) (s.redone_snoc done (.inl hik))
  rw [State.putEntry_dueList]
  split
  · refine pairwise_insertDue_ahead ⟨by simp, ht⟩ (fun j hj hr => ?_) others
    have hij : i ≠ j := fun hij => by simp [hij] at hj
    rw [hl]
    exact idxOf_lt_of_mem_front ((s.redone_snoc done (.inl hij)).mp hr).1 fresh
  · exact others

/-- The next entry of the list is dealt with. -/
theorem State.HaltedUpTo.snoc (h : s.HaltedUpTo u done) : s.HaltedUpTo (u.countTrailingDone i) (done ++ [i]) := by
  have entry : u.entry i = s.entry i := by rw [h.record, if_neg fresh]
  have record : u.haltedRecord i = s.haltedRecord i := State.haltedRecord_congr h.now entry
  refine ⟨?_, fun j => ?_, fun sorted => ?_⟩
  · rw [State.now, (sameOutside_countTrailingDone u i).timebase]
    exact h.now
  · rw [State.entry_countTrailingDone, record, h.record]
    by_cases hij : i = j
    · simp [hij]
    · simp [hij, Ne.symm hij]
  · rcases u.countTrailingDone_record i with ⟨trailing, heq⟩ | ⟨untrailing, -, heq⟩ <;> rw [heq]
    · exact State.putEntry_standsAhead hl fresh _ (entry ▸ trailing) (h.sorted sorted)
    · have same : ∀ j, s.Redone (done ++ [i]) j ↔ s.Redone done j :=
        fun j => s.redone_snoc done (.inr (entry ▸ untrailing))
      exact (h.sorted sorted).imp fun ahead => ahead.congr rfl rfl (same _) (same _)

end Snoc

theorem State.HaltedUpTo.foldl {s : State} (hs : s.dueList.Nodup) (rest : List EntryIx) {u : State} {done : List EntryIx}
    (hl : s.dueList = done ++ rest) (h : s.HaltedUpTo u done) :
    s.HaltedUpTo (rest.foldl State.countTrailingDone u) s.dueList := by
  induction rest generalizing u done with
  | nil => simpa [hl] using h
  | cons i rest ih =>
    have fresh : i ∉ done := by
      rw [hl] at hs
      exact fun hi => List.disjoint_of_nodup_append hs hi (by simp)
    exact ih (by simp [hl]) (h.snoc hl fresh)

/-- A TRAILING entry has a due time, so it is on the list and is dealt with (R23). -/
theorem DueListOk.redone_iff {s : State} (h : DueListOk s) (i : EntryIx) :
    s.Redone s.dueList i ↔ entryState (s.entry i) = .trailing := by
  refine ⟨And.right, fun ht => ⟨(h.2 i).mpr ?_, ht⟩⟩
  unfold State.dueOf
  cases he : s.entry i with
  | none => simp [he, entryState] at ht
  | some e => cases hp : e.progress <;> simp_all [entryState, Progress.state, Progress.due]

theorem State.haltedUpTo_enterHalted {s : State} (hs : s.dueList.Nodup) : s.HaltedUpTo s.enterHalted s.dueList :=
  (State.haltedUpTo_nil (s := s) (u := { s with lines := s.lines.map OutLine.forceSafe }) rfl (fun _ => rfl) rfl hs).foldl
    hs s.dueList (List.nil_append _).symm

/-! ### The entry as a whole -/

theorem OutLine.forceSafe_eq (l : OutLine) : l.forceSafe = if l.mode = .timed then { l with timed := l.safe } else l := by
  unfold OutLine.forceSafe
  cases l.mode <;> rfl

theorem State.line_enterHalted (s : State) (n : LineIx) : s.enterHalted.line n = (s.line n).forceSafe := by
  rw [State.line_congr (t := s.enterHalted) (State.foldl_countTrailingDone_lines _ _)]
  simp [State.line]

theorem State.entry_enterHalted {s : State} (h : DueListOk s) (i : EntryIx) : s.enterHalted.entry i = s.haltedRecord i := by
  rw [(State.haltedUpTo_enterHalted h.1).record]
  split
  · rfl
  · next hi => exact (h.haltedRecord_unlisted hi).symm

/-- An entry goes on after its trailing action: its life ends CANCELLED, it stands one period on, it waits, or its life ends
DONE (R42, R60). -/
theorem Entry.afterTrailing_eq (e : Entry) (lead : Tick) (remaining : Quantity) (cancelled : Bool) (now : Tick) :
    e.afterTrailing lead remaining cancelled now =
      if cancelled then e.endLife .cancelled now (some remaining)
      else
        match remaining.positive, e.plan.rep with
        | true, some r => some { e with progress := .pending (lead + r.period) remaining }
        | _, _ => if e.armed then some { e with progress := .waiting } else e.endLife .done now (some (.number 0)) := by
  unfold Entry.afterTrailing Entry.goOn Plan.nextDue Entry.endSeries
  cases remaining.positive <;> cases e.plan.rep <;> rfl

/-- The entry into HALTED does to the lines, the entries and the list what R67, R81 and R82 say. -/
theorem entersHalted_enterHalted {s : State} (h : DueListOk s) : EntersHalted s s.enterHalted := by
  have same := sameOutside_enterHalted s
  refine ⟨fun n => ?_, fun i => ?_, dueListOk_enterHalted h, fun sorted => ?_, same.timebase, same.channels, same.hold,
    same.pending⟩
  · rw [State.line_enterHalted, OutLine.forceSafe_eq]
  · rw [State.entry_enterHalted h]
    unfold State.haltedRecord
    cases s.entry i with
    | none => rfl
    | some e =>
      dsimp only
      cases e.progress with
      | trailing due lead remaining cancelled => exact e.afterTrailing_eq lead remaining cancelled s.now
      | _ => rfl
  · exact ((State.haltedUpTo_enterHalted h.1).sorted sorted).imp fun {i j} ahead =>
      ahead.congr (redone' := fun k => entryState (s.entry k) = .trailing) rfl rfl (h.redone_iff i).symm (h.redone_iff j).symm

end Sys2Proof.Machine
end

section
/-! PROOF. The Halt Unit (chapter 5): due times while HALTED, the adding of a cause, and the requests HALT, RESUME and
STOP-SETUP. -/

namespace Sys2Proof.Machine

/-! ### A due time while HALTED (R83) -/

/-- Settles O45: an entry missed with occurrences left, with arms left, with neither. -/
theorem dueMissedWhileHalted : Obligations.DueMissedWhileHalted := by
  intro u i rest e due remaining n h hh hp now left missed goesOn
  have next := h.serveDue n
  obtain ⟨-, hi, he, -, -⟩ := h
  rw [State.serveEntry_pending (s := u.setDueList rest) he hp, if_pos (by exact hh), State.missDue] at next
  refine ⟨fun r hr hl => ?_, fun hl ha => ?_, fun hl ha => ?_⟩
  · rw [Entry.eventRemaining_left (.inl hl)] at next
    obtain ⟨after, inserted, put⟩ := State.putEntry_goOn_pending (v := u) (e := missed (some left)) (lead := due)
      (now := now) (outcome := .missed) hi hr hl
    exact ⟨after, inserted, next.trans (congrArg _ put)⟩
  · rw [Entry.eventRemaining_waiting hl ha] at next
    exact next.trans (congrArg _ (State.putEntry_goOn_waiting (v := u) (e := missed none) hi hl ha))
  · rw [Entry.eventRemaining_left (.inr ha)] at next
    exact next.trans (congrArg _ (State.putEntry_goOn_ended (v := u) (e := missed (some left)) hi hl ha))

/-! ### Sets of causes (R75) -/

namespace Causes

variable (a c : Causes)

theorem within_ofRequest : Causes.ofRequest.within c = c.request := by
  obtain ⟨request, stopLine, silence⟩ := c
  cases request <;> simp [Causes.within, Causes.union, Causes.ofRequest]

theorem within_ofStopLine : Causes.ofStopLine.within c = c.stopLine := by
  obtain ⟨request, stopLine, silence⟩ := c
  cases stopLine <;> simp [Causes.within, Causes.union, Causes.ofStopLine]

theorem union_ofRequest : c.union Causes.ofRequest = { c with request := true } := by
  simp [Causes.union, Causes.ofRequest]

theorem union_ofStopLine : c.union Causes.ofStopLine = { c with stopLine := true } := by
  simp [Causes.union, Causes.ofStopLine]

theorem union_empty : c.union Causes.empty = c := by simp [Causes.union, Causes.empty]

theorem eq_empty {c : Causes} (h : c.any = false) : c = ⟨false, false, false⟩ := by
  obtain ⟨request, stopLine, silence⟩ := c
  simpa [Causes.any, and_assoc] using h

theorem union_comm : a.union c = c.union a := by simp [Causes.union, Bool.or_comm]

end Causes

theorem Causes.union_of_within {a c : Causes} (h : a.within c = true) : c.union a = c := by
  rw [Causes.union_comm]
  simpa [Causes.within] using h

/-! ### Adding a cause (R75, R81, R87, R88) -/

/-- The Halt Unit with a cause that was absent joined to the set and to the halt slot. -/
def HaltUnit.joined (h : HaltUnit) (c : Causes) : HaltUnit := { h with causes := h.causes.union c }.openSlot c

theorem HaltUnit.joined_ofRequest (h : HaltUnit) :
    h.joined Causes.ofRequest =
      { h with
        causes := { h.causes with request := true }
        slot := some { h.slot.getD ⟨false, false, false⟩ with request := true } } := by
  simp only [HaltUnit.joined, HaltUnit.openSlot, Causes.union_ofRequest]
  rfl

theorem HaltUnit.joined_ofStopLine (h : HaltUnit) :
    h.joined Causes.ofStopLine =
      { h with
        causes := { h.causes with stopLine := true }
        slot := some { h.slot.getD ⟨false, false, false⟩ with stopLine := true } } := by
  simp only [HaltUnit.joined, HaltUnit.openSlot, Causes.union_ofStopLine]
  rfl

section AddCause

variable {s : State} {c : Causes}

theorem State.addCause_present (hw : c.within s.halt.causes = true) : s.addCause c = s := by
  simp [State.addCause, hw]

theorem State.addCause_halted (hw : c.within s.halt.causes = false) (hh : s.halted = true) :
    s.addCause c = s.setHalt (s.halt.joined c) := by
  simp [State.addCause, hw, hh, HaltUnit.joined]

theorem State.addCause_running (hw : c.within s.halt.causes = false) (hh : s.halted = false) :
    s.addCause c = (s.setHalt (s.halt.joined c)).enterHalted := by
  simp [State.addCause, hw, hh, HaltUnit.joined]

theorem State.halt_addCause (s : State) (c : Causes) :
    (s.addCause c).halt = if c.within s.halt.causes then s.halt else s.halt.joined c := by
  rcases s.addCause_cases c with ⟨hw, e⟩ | ⟨hw, -, e⟩ | ⟨hw, -, e⟩ <;> rw [e, hw]
  · rfl
  · rfl
  · exact (sameOutside_enterHalted _).halt

/-- Added or present, the cause is in the set. -/
theorem State.causes_addCause (s : State) (c : Causes) : (s.addCause c).halt.causes = s.halt.causes.union c := by
  rw [State.halt_addCause]
  split
  · next hw => exact (Causes.union_of_within hw).symm
  · rfl

/-- The first cause makes the timeline enter HALTED (R81). -/
theorem State.addCause_enters (hd : DueListOk s) (hw : c.within s.halt.causes = false) (hh : s.halted = false) :
    EntersHalted s (s.addCause c) ∧ (s.addCause c).halt = s.halt.joined c ∧ (s.addCause c).reports = s.reports ∧
      (s.addCause c).link = s.link := by
  obtain ⟨-, -, reports, link, -, -⟩ := s.addCause_frame c
  refine ⟨?_, by rw [State.halt_addCause, hw]; rfl, reports, link⟩
  rw [State.addCause_running hw hh]
  exact entersHalted_enterHalted (s := s.setHalt (s.halt.joined c)) (dueListOk_congr (s := s) rfl rfl hd)

end AddCause

/-! ### HALT (R79) -/

theorem haltRequest_adds (s : State) :
    haltRequest [] s =
      accept (.halt true { s.halt.causes with request := true }) (s.addCause Causes.ofRequest) := by
  have causes := s.causes_addCause Causes.ofRequest
  rw [Causes.union_ofRequest] at causes
  have halted : (s.addCause Causes.ofRequest).halted = true := by simp [State.halted, causes, Causes.any]
  simp only [haltRequest, readEmpty, halted, causes]

theorem exec_halt {s : State} {seq : Byte} (hx : Executes s (RequestKind.halt.frame seq [])) :
    exec (.halt seq []) s =
      .next ((s.dequeued.addCause Causes.ofRequest).setLink
        (s.link.answered (RequestKind.halt.okAnswer seq (.halt true { s.halt.causes with request := true })))) := by
  obtain ⟨-, -, -, link, hold, -⟩ := s.dequeued.addCause_frame Causes.ofRequest
  exact exec_accepted (k := .halt) hx (by simp) (haltRequest_adds s.dequeued) link hold

/-! ### RESUME (R85, R86) -/

section Resume

variable {s : State}

theorem State.resumeHeld_iff (s : State) :
    s.resumeHeld = true ↔
      (s.halt.causes.stopLine = true ∧ s.halt.stopEnable = true ∧ s.halt.stopFiltered = s.halt.stopActive) ∨
        (s.halt.causes.silence = true ∧ s.reports.state = .silent) := by
  simp [State.resumeHeld, HaltUnit.stopIsActive]

theorem resumeRequest_running (hh : s.halted = false) :
    resumeRequest [] s = accept (.resume false ⟨false, false, false⟩ s.halt.stopFiltered) s := by
  simp [resumeRequest, readEmpty, hh, State.resumeFields, Causes.eq_empty hh]

theorem resumeRequest_held (hh : s.halted = true) (hr : s.resumeHeld = true) :
    resumeRequest [] s = (⟨.state, .resume true s.halt.causes s.halt.stopFiltered⟩, s) := by
  simp [resumeRequest, readEmpty, hh, hr, State.resumeFields]

theorem resumeRequest_clears (hh : s.halted = true) (hr : s.resumeHeld = false) :
    resumeRequest [] s =
      accept (.resume false ⟨false, false, false⟩ s.halt.stopFiltered)
        (s.setHalt
          { s.halt with causes := ⟨false, false, false⟩, slot := some (s.halt.slot.getD ⟨false, false, false⟩) }) := by
  simp only [resumeRequest, readEmpty, hh, hr, HaltUnit.openSlot, Causes.union_empty]
  rfl

end Resume

/-- The answer of a refusal that carries fields changes the link alone. -/
theorem exec_resume_held {s : State} {seq : Byte} (hx : Executes s (RequestKind.resume.frame seq []))
    (hh : s.halted = true) (hr : s.resumeHeld = true) :
    exec (.resume seq []) s =
      .next (s.setLink (s.link.answered ⟨0xA5, seq, .state, .resume true s.halt.causes s.halt.stopFiltered⟩)) := by
  have answered := requestStep_answered resumeRequest hx (isRequestKind_code .resume) (by simp)
    (resumeRequest_held (s := s.dequeued) hh hr) rfl hx.1
  exact congrArg Host.Outcome.next answered

/-- Settles O50: for HALT, REQUEST present, HALTED without it, RUNNING; for RESUME, RUNNING, held, not held. -/
theorem haltAndResume : Obligations.HaltAndResume := by
  refine ⟨fun s seq hx hd => ?_, fun s seq hx => ?_⟩
  · rw [exec_halt hx]
    have within : Causes.ofRequest.within s.dequeued.halt.causes = s.halt.causes.request :=
      Causes.within_ofRequest _
    refine ⟨fun hr => ?_, fun ha hr => ?_, fun ha => ?_⟩
    · rw [State.addCause_present (within.trans hr)]
      rfl
    · rw [State.addCause_halted (within.trans hr) ha, HaltUnit.joined_ofRequest]
      rfl
    · have absent : s.halt.causes.request = false := by rw [Causes.eq_empty ha]
      obtain ⟨enters, halt, reports, -⟩ := State.addCause_enters (s := s.dequeued) hd (within.trans absent) ha
      exact ⟨_, rfl, enters, halt.trans (HaltUnit.joined_ofRequest _), reports, rfl⟩
  · intro held empty
    refine ⟨fun ha => ?_, fun ha hr => ?_, fun ha hr => ?_⟩
    · exact exec_accepted (k := .resume) (t := s.dequeued) hx (by simp) (resumeRequest_running ha) rfl rfl
    · exact exec_resume_held hx ha (s.resumeHeld_iff.mpr hr)
    · have free : s.resumeHeld = false := by rwa [Bool.eq_false_iff, Ne, s.resumeHeld_iff]
      exact exec_accepted (k := .resume) hx (by simp) (resumeRequest_clears (s := s.dequeued) ha free) rfl rfl

/-! ### STOP-SETUP (R78) -/

theorem HaltUnit.stopIsActive_iff (h : HaltUnit) :
    h.stopIsActive = true ↔ h.stopEnable = true ∧ h.stopFiltered = h.stopActive := by simp [HaltUnit.stopIsActive]

theorem HaltUnit.stopIsActive_eq_false_iff (h : HaltUnit) :
    h.stopIsActive = false ↔ ¬(h.stopEnable = true ∧ h.stopFiltered = h.stopActive) := by
  rw [← h.stopIsActive_iff, Bool.not_eq_true]

/-- Adding a cause leaves what the Halt Unit holds of the STOP line. -/
theorem State.stop_addCause (s : State) (c : Causes) :
    (s.addCause c).halt.stopEnable = s.halt.stopEnable ∧ (s.addCause c).halt.stopActive = s.halt.stopActive ∧
      (s.addCause c).halt.stopFiltered = s.halt.stopFiltered := by
  rw [State.halt_addCause]
  split <;> exact ⟨rfl, rfl, rfl⟩

theorem readStopSetup_value {e a : Byte} (h : 1 < e.toNat ∨ 1 < a.toNat) : readStopSetup [e, a] = .error .value := by
  simp only [readStopSetup]
  split
  · next he ha =>
    rcases h with h | h
    · cases (levelOf_of_lt h).symm.trans he
    · cases (levelOf_of_lt h).symm.trans ha
  · rfl

theorem readStopSetup_ok {e a : Byte} (he : e.toNat ≤ 1) (ha : a.toNat ≤ 1) :
    readStopSetup [e, a] = .ok (decide (e = 1), decide (a = 1)) := by
  have enable : flagOf e = some (decide (e = 1)) := levelOf_of_le he
  simp only [readStopSetup, enable, levelOf_of_le ha]

theorem stopSetupRequest_error {body : List Byte} {st : Status} {s : State} (hr : readStopSetup body = .error st) :
    stopSetupRequest body s = refuse st s := by
  simp only [stopSetupRequest, hr]

/-- The state with the setup of the STOP line stored. -/
def State.stopSetUp (s : State) (enable active : Bool) : State :=
  s.setHalt { s.halt with stopEnable := enable, stopActive := active }

section StopSetup

variable {s : State} {body : List Byte} {enable active : Bool}

theorem stopSetupRequest_inactive (hr : readStopSetup body = .ok (enable, active))
    (hi : ¬(enable = true ∧ s.halt.stopFiltered = active)) :
    stopSetupRequest body s =
      accept (.stopSetup enable active s.halt.stopFiltered s.halted s.halt.causes) (s.stopSetUp enable active) := by
  have inactive : (s.stopSetUp enable active).halt.stopIsActive = false :=
    (HaltUnit.stopIsActive_eq_false_iff _).mpr hi
  unfold State.stopSetUp at inactive
  simp only [stopSetupRequest, hr, inactive]
  rfl

theorem stopSetupRequest_active (hr : readStopSetup body = .ok (enable, active))
    (ha : enable = true ∧ s.halt.stopFiltered = active) :
    stopSetupRequest body s =
      accept (.stopSetup enable active s.halt.stopFiltered true { s.halt.causes with stopLine := true })
        ((s.stopSetUp enable active).addCause Causes.ofStopLine) := by
  have isActive : (s.stopSetUp enable active).halt.stopIsActive = true := (HaltUnit.stopIsActive_iff _).mpr ha
  obtain ⟨hEnable, hActive, hFiltered⟩ := (s.stopSetUp enable active).stop_addCause Causes.ofStopLine
  have causes := (s.stopSetUp enable active).causes_addCause Causes.ofStopLine
  rw [Causes.union_ofStopLine] at causes
  have halted : ((s.stopSetUp enable active).addCause Causes.ofStopLine).halted = true := by
    simp [State.halted, causes, Causes.any]
  unfold State.stopSetUp at *
  simp only [stopSetupRequest, hr, isActive, if_true, hEnable, hActive, hFiltered, halted, causes]
  rfl

end StopSetup

theorem exec_stopSetup_active {s : State} {seq : Byte} {body : List Byte} {enable active : Bool}
    (hx : Executes s (RequestKind.stopSetup.frame seq body)) (hl : body.length ≤ 512)
    (hr : readStopSetup body = .ok (enable, active)) (ha : enable = true ∧ s.halt.stopFiltered = active) :
    exec (.stopSetup seq body) s =
      .next (((s.dequeued.stopSetUp enable active).addCause Causes.ofStopLine).setLink
        (s.link.answered (RequestKind.stopSetup.okAnswer seq
          (.stopSetup enable active s.halt.stopFiltered true { s.halt.causes with stopLine := true })))) := by
  obtain ⟨-, -, -, link, hold, -⟩ := (s.dequeued.stopSetUp enable active).addCause_frame Causes.ofStopLine
  exact exec_accepted (k := .stopSetup) hx hl (stopSetupRequest_active (s := s.dequeued) hr ha) link hold

/-- Settles O51: a field out of range; the line not active or its cause present; HALTED without the cause; RUNNING. -/
theorem stopSetupTests : Obligations.StopSetupTests := by
  intro s seq eb ab hx hd enable active unit stopActive causes stopped l
  have short : ([eb, ab] : List Byte).length ≤ 512 := by simp
  refine ⟨fun hv => exec_refused (k := .stopSetup) hx short (stopSetupRequest_error (readStopSetup_value hv)), ?_⟩
  intro he ha
  have read : readStopSetup [eb, ab] = .ok (enable, active) := readStopSetup_ok he ha
  have within : Causes.ofStopLine.within (s.dequeued.stopSetUp enable active).halt.causes = s.halt.causes.stopLine :=
    Causes.within_ofStopLine _
  refine ⟨fun hq => ?_, fun hs hp hh => ?_, fun hs hh => ?_⟩
  · by_cases hs : stopActive
    · have present : s.halt.causes.stopLine = true := hq.resolve_left (not_not_intro hs)
      have same : causes = s.halt.causes :=
        (Causes.union_ofStopLine _).symm.trans (Causes.union_of_within ((Causes.within_ofStopLine _).trans present))
      have halted : s.halt.causes.any = true := by simp [Causes.any, present]
      rw [exec_stopSetup_active hx short read hs, State.addCause_present (within.trans present), halted, ← same]
      rfl
    · exact exec_accepted (k := .stopSetup) hx short (stopSetupRequest_inactive (s := s.dequeued) read hs) rfl rfl
  · rw [exec_stopSetup_active hx short read hs, State.addCause_halted (within.trans hp) hh,
      HaltUnit.joined_ofStopLine]
    rfl
  · have absent : s.halt.causes.stopLine = false := by rw [Causes.eq_empty hh]
    obtain ⟨enters, halt, reports, -⟩ := State.addCause_enters (s := s.dequeued.stopSetUp enable active)
      (dueListOk_congr (s := s) rfl rfl hd) (within.trans absent) hh
    exact ⟨_, exec_stopSetup_active hx short read hs, enters, halt.trans (HaltUnit.joined_ofStopLine _), reports, rfl⟩

end Sys2Proof.Machine
end

section
/-! PROOF. The STOP line and the filters (sections 5.2, 6.2): the levels that the STOP filter accepts, and the filters of STOP
and of the input lines in periods of the base clock. -/

namespace Sys2Proof.Machine

/-! ### The acceptance of a level of STOP (R76, R77, R88) -/

theorem HaltUnit.openSlot_empty (h : HaltUnit) :
    h.openSlot Causes.empty = { h with slot := some (h.slot.getD ⟨false, false, false⟩) } := by
  rw [HaltUnit.openSlot, Causes.union_empty]
  rfl

/-- The state with the filtered level of STOP changed and the window closed. -/
def State.stopTaken (s : State) : State :=
  s.setHalt { s.halt with stopFiltered := !s.halt.stopFiltered, stopWindow := none }

/-- That state with the STOP line tested: the active level adds STOP_LINE (R77). -/
def State.stopTested (s : State) : State :=
  if s.stopTaken.halt.stopIsActive then s.stopTaken.addCause Causes.ofStopLine else s.stopTaken

/-- The level of a disabled line is only stored; that of an enabled line is tested, and opens the halt slot (R77, R88). -/
theorem State.acceptStop_eq (s : State) :
    s.acceptStop =
      if s.halt.stopEnable then
        s.stopTested.setHalt { s.stopTested.halt with slot := some (s.stopTested.halt.slot.getD ⟨false, false, false⟩) }
      else s.stopTaken := by
  rw [← HaltUnit.openSlot_empty]
  rfl

/-- The state with the pin of STOP away from the filtered level. -/
def State.stopLeft (s : State) : State := s.setHalt { s.halt with stopRaw := !s.halt.stopFiltered }

theorem exec_stopLevelAccepted {s : State} (hw : s.halt.stopWindow ≠ none) :
    exec .stopLevelAccepted s = .next s.stopLeft.acceptStop := by
  simp [exec, execStopLevelAccepted, Option.isSome_iff_ne_none.mpr hw, State.stopLeft]

theorem exec_stopGlitch {s : State} (hw : s.halt.stopWindow ≠ none) : exec .stopGlitch s = .next s.stopReturns := by
  simp [exec, execStopGlitch, Option.isSome_iff_ne_none.mpr hw]

theorem exec_stopWindowOpen {s : State} (hh : s.hold = none) (hw : s.halt.stopWindow = none) :
    exec .stopWindowOpen s = .next s.openStopWindow := by
  simp [exec, execStopWindowOpen, hh, hw]

/-- Settles O52: the window opened and closed; the accepted level of a disabled line; the active level or another, with the
cause present, HALTED without it, RUNNING. -/
theorem stopFilterActs : Obligations.StopFilterActs := by
  intro s hd new taken slot latched
  refine ⟨fun hh hw => exec_stopWindowOpen hh hw, fun hw => exec_stopGlitch hw, fun hw => ?_⟩
  rw [exec_stopLevelAccepted hw, State.acceptStop_eq]
  have within : Causes.ofStopLine.within s.stopLeft.stopTaken.halt.causes = s.halt.causes.stopLine :=
    Causes.within_ofStopLine _
  have active : s.halt.stopEnable = true → new = s.halt.stopActive →
      s.stopLeft.stopTested = s.stopLeft.stopTaken.addCause Causes.ofStopLine :=
    fun he hn => if_pos ((s.stopLeft.stopTaken.halt.stopIsActive_iff).mpr ⟨he, hn⟩)
  refine ⟨fun he => ?_, fun he hq => ?_, fun he hn hh hp => ?_, fun he hn hh => ?_⟩
  · rw [if_neg (by simp [State.stopLeft, he])]
    rfl
  · have tested : s.stopLeft.stopTested = s.stopLeft.stopTaken := by
      by_cases hn : new = s.halt.stopActive
      · exact (active he hn).trans (State.addCause_present (within.trans (hq.resolve_left (not_not_intro hn))))
      · exact if_neg fun ha => hn ((HaltUnit.stopIsActive_iff _).mp ha).2
    rw [if_pos (by exact he), tested]
    rfl
  · rw [if_pos (by exact he), active he hn, State.addCause_halted (within.trans hp) hh, HaltUnit.joined_ofStopLine]
    rfl
  · have absent : s.halt.causes.stopLine = false := by rw [Causes.eq_empty hh]
    obtain ⟨enters, halt, reports, link⟩ := State.addCause_enters (s := s.stopLeft.stopTaken)
      (dueListOk_congr (s := s) rfl rfl hd) (within.trans absent) hh
    rw [if_pos (by exact he), active he hn, halt, HaltUnit.joined_ofStopLine]
    exact ⟨_, rfl, enters, rfl, reports, link⟩

/-! ### The STOP filter in periods (R76) -/

section StopPeriods

variable {s : State}

theorem State.stopPeriod_rests (hr : s.halt.stopRaw = s.halt.stopFiltered) (hw : s.halt.stopWindow = none) :
    s.stopPeriod = s := by
  simp [State.stopPeriod, hr, hw]

theorem State.stopPeriod_returns (hr : s.halt.stopRaw = s.halt.stopFiltered) (hw : s.halt.stopWindow ≠ none) :
    s.stopPeriod = s.stopReturns := by
  obtain ⟨k, hk⟩ := Option.ne_none_iff_exists'.mp hw
  simp [State.stopPeriod, hr, hk]

variable (hr : s.halt.stopRaw ≠ s.halt.stopFiltered)
include hr

theorem State.stopPeriod_opens (hw : s.halt.stopWindow = none) : s.stopPeriod = s.openStopWindow := by
  simp [State.stopPeriod, hr, hw]

variable {k : Nat}

theorem State.stopPeriod_counts (hw : s.halt.stopWindow = some k) (hk : k + 1 < 240) :
    s.stopPeriod = s.setHalt { s.halt with stopWindow := some (k + 1) } := by
  have below : ¬Config.stopFilterPeriods ≤ k + 1 := not_le.mpr hk
  simp only [State.stopPeriod, hw, if_neg hr, if_neg below]

theorem State.stopPeriod_accepts (hw : s.halt.stopWindow = some k) (hk : k + 1 = 240) : s.stopPeriod = s.acceptStop := by
  have full : Config.stopFilterPeriods ≤ k + 1 := hk.ge
  simp only [State.stopPeriod, hw, if_neg hr, if_pos full]

theorem State.stopPeriod_iterate (hw : s.halt.stopWindow = some k) (n : Nat) (hn : k + n < 240) :
    State.stopPeriod^[n] s = s.setHalt { s.halt with stopWindow := some (k + n) } := by
  induction n with
  | zero =>
    rw [Nat.add_zero, ← hw]
    rfl
  | succ n ih =>
    rw [Function.iterate_succ_apply', ih (by omega), State.stopPeriod_counts (by exact hr) rfl (by omega)]
    rfl

/-- The pin of a line in its window is away from the filtered level. -/
theorem State.stopLeft_eq : s.stopLeft = s := by
  have raw : s.halt.stopRaw = !s.halt.stopFiltered := Bool.eq_not_of_ne hr
  rw [State.stopLeft, ← raw]
  rfl

/-- The period that completes 240 is the acceptance, which does not look at how long the window has stayed open. -/
theorem State.stopPeriod_iterate_accepts (hw : s.halt.stopWindow = some k) (n : Nat) (h1 : 1 ≤ n) (hn : k + n = 240) :
    exec .stopLevelAccepted s = .next (State.stopPeriod^[n] s) := by
  obtain ⟨m, rfl⟩ := Nat.exists_eq_add_of_le' h1
  rw [exec_stopLevelAccepted (by simp [hw]), State.stopLeft_eq hr, Function.iterate_succ_apply',
    State.stopPeriod_iterate hr hw m (by omega), State.stopPeriod_accepts (by exact hr) rfl (by omega)]
  rfl

end StopPeriods

/-! ### An input filter in periods (R91, R92) -/

theorem State.setChannel_setChannel (s : State) (c : ChanIx) (a b : Channel) :
    (s.setChannel c a).setChannel c b = s.setChannel c b := by
  simp [State.setChannel]

/-- The state with the window of a channel open for a while. -/
def State.windowed (s : State) (c : ChanIx) (w : Window) : State :=
  s.setChannel c { s.channel c with window := some w }

@[simp] theorem State.channel_windowed (s : State) (c : ChanIx) (w : Window) :
    (s.windowed c w).channel c = { s.channel c with window := some w } := s.channel_setChannel_self c _

theorem State.windowed_windowed (s : State) (c : ChanIx) (v w : Window) : (s.windowed c v).windowed c w = s.windowed c w := by
  rw [State.windowed, State.channel_windowed]
  exact s.setChannel_setChannel c _ _

theorem State.windowed_self {s : State} {c : ChanIx} {w : Window} (hw : (s.channel c).window = some w) :
    s.windowed c w = s := by
  rw [State.windowed, ← hw]
  exact s.setChannel_self c

/-- An acceptance does not look at how long the window has stayed open. -/
theorem State.acceptEdge_windowed (s : State) (c : ChanIx) (w : Window) (stamp : Tick) :
    (s.windowed c w).acceptEdge c stamp = s.acceptEdge c stamp := by
  have taken : ∀ ch : Channel, (s.windowed c w).setChannel c ch = s.setChannel c ch := s.setChannel_setChannel c _
  simp only [State.acceptEdge, State.channel_windowed, taken]

section InputPeriods

variable {s : State} {c : ChanIx}

theorem State.inputPeriod_rests (hr : (s.channel c).raw = (s.channel c).filtered) (hw : (s.channel c).window = none) :
    s.inputPeriod c = s := by
  simp [State.inputPeriod, hr, hw]

theorem State.inputPeriod_returns (hr : (s.channel c).raw = (s.channel c).filtered) (hw : (s.channel c).window ≠ none) :
    s.inputPeriod c = s.setChannel c (s.channel c).glitch := by
  obtain ⟨w, hw⟩ := Option.ne_none_iff_exists'.mp hw
  simp [State.inputPeriod, hr, hw]

theorem exec_glitch (hw : (s.channel c).window ≠ none) :
    exec (.glitch c) s = .next (s.setChannel c (s.channel c).glitch) := by
  simp [exec, execGlitch, Option.isSome_iff_ne_none.mpr hw]

theorem exec_rawTransition (hh : s.hold = none) (hw : (s.channel c).window = none) :
    exec (.rawTransition c) s = .next (s.rawTransition c) := by
  simp [exec, execRawTransition, hh, hw]

theorem exec_edgeAccepted {w : Window} (hw : (s.channel c).window = some w) :
    exec (.edgeAccepted c) s =
      .next ((s.setChannel c { s.channel c with raw := !(s.channel c).filtered }).acceptEdge c w.stamp) := by
  simp [exec, execEdgeAccepted, hw]

variable (hr : (s.channel c).raw ≠ (s.channel c).filtered)
include hr

theorem State.inputPeriod_opens (hw : (s.channel c).window = none) : s.inputPeriod c = s.rawTransition c := by
  simp [State.inputPeriod, hr, hw]

variable {stamp : Tick} {k : Nat}

theorem State.inputPeriod_counts (hw : (s.channel c).window = some ⟨stamp, k⟩)
    (hk : k + 1 < 24 * (s.channel c).setup.filter) :
    s.inputPeriod c = s.windowed c ⟨stamp, k + 1⟩ := by
  have below : ¬(s.channel c).setup.filter * Config.periodsPerUs ≤ k + 1 := by
    unfold Config.periodsPerUs
    omega
  simp only [State.inputPeriod, hw, if_neg hr, if_neg below]
  rfl

theorem State.inputPeriod_accepts (hw : (s.channel c).window = some ⟨stamp, k⟩)
    (hk : k + 1 = 24 * (s.channel c).setup.filter) : s.inputPeriod c = s.acceptEdge c stamp := by
  have full : (s.channel c).setup.filter * Config.periodsPerUs ≤ k + 1 := by
    unfold Config.periodsPerUs
    omega
  simp only [State.inputPeriod, hw, if_neg hr, if_pos full]

theorem State.inputPeriod_iterate (hw : (s.channel c).window = some ⟨stamp, k⟩) (n : Nat)
    (hn : k + n < 24 * (s.channel c).setup.filter) :
    (fun u : State => u.inputPeriod c)^[n] s = s.windowed c ⟨stamp, k + n⟩ := by
  induction n with
  | zero => exact (State.windowed_self hw).symm
  | succ n ih =>
    rw [Function.iterate_succ_apply', ih (by omega),
      State.inputPeriod_counts (stamp := stamp) (k := k + n) (by simpa using hr) (by simp)
        (by rw [State.channel_windowed]; exact hn),
      State.windowed_windowed, Nat.add_assoc]

/-- The line in its window is away from the filtered level. -/
theorem State.setChannel_raw : s.setChannel c { s.channel c with raw := !(s.channel c).filtered } = s := by
  have raw : (s.channel c).raw = !(s.channel c).filtered := Bool.eq_not_of_ne hr
  rw [← raw]
  exact s.setChannel_self c

/-- The period that completes the filter time is the acceptance. -/
theorem State.inputPeriod_iterate_accepts (hw : (s.channel c).window = some ⟨stamp, k⟩) (n : Nat) (h1 : 1 ≤ n)
    (hn : k + n = 24 * (s.channel c).setup.filter) :
    exec (.edgeAccepted c) s = .next ((fun u : State => u.inputPeriod c)^[n] s) := by
  obtain ⟨m, rfl⟩ := Nat.exists_eq_add_of_le' h1
  rw [exec_edgeAccepted hw, State.setChannel_raw hr, Function.iterate_succ_apply',
    State.inputPeriod_iterate hr hw m (by omega),
    State.inputPeriod_accepts (stamp := stamp) (k := k + m) (by simpa using hr) (by simp)
      (by rw [State.channel_windowed]; exact hn),
    State.acceptEdge_windowed]

end InputPeriods

/-- Settles O55: for each filter, at rest, a return, an opening, and the window by induction on the periods. -/
theorem filtersTimed : Obligations.FiltersTimed := by
  refine ⟨fun s hh => ⟨State.stopPeriod_rests, fun hr hw => ?_, fun hr hw => ?_, fun k n hr hw => ?_⟩,
    fun s c hh => ⟨State.inputPeriod_rests, fun hr hw => ?_, fun hr hw => ?_, fun stamp k n hr hw => ?_⟩⟩
  · rw [State.stopPeriod_returns hr hw, exec_stopGlitch hw]
  · rw [State.stopPeriod_opens hr hw, exec_stopWindowOpen hh hw]
  · exact ⟨State.stopPeriod_iterate hr hw n, State.stopPeriod_iterate_accepts hr hw n⟩
  · rw [exec_glitch hw]
    exact congrArg _ (State.inputPeriod_returns hr hw).symm
  · rw [exec_rawTransition hh hw]
    exact congrArg _ (State.inputPeriod_opens hr hw).symm
  · exact ⟨State.inputPeriod_iterate hr hw n, State.inputPeriod_iterate_accepts hr hw n⟩

end Sys2Proof.Machine
end

section
/-! PROOF. The Input Channels' requests (sections 6.7 and 6.8): the reader of CHANNEL-SETUP accepts exactly the bodies that lay
out a channel and a setup in range, and each request is refused or executed with the whole next state. -/

namespace Sys2Proof.Machine

/-! ### The codes and the bodies (Table 11-2, R102, R105) -/

theorem ChannelMode.ofCode_iff {b : Byte} {m : ChannelMode} :
    ChannelMode.ofCode b = some m ↔ b = BitVec.ofNat 8 m.code := by
  constructor
  · intro h
    unfold ChannelMode.ofCode at h
    split_ifs at h <;> cases h <;> assumption
  · rintro rfl
    cases m <;> rfl

theorem CaptureSense.ofCode_iff {b : Byte} {sense : CaptureSense} :
    CaptureSense.ofCode b = some sense ↔ b = BitVec.ofNat 8 sense.code := by
  constructor
  · intro h
    unfold CaptureSense.ofCode at h
    split_ifs at h <;> cases h <;> assumption
  · rintro rfl
    cases sense <;> rfl

theorem flagOf_iff {b : Byte} {f : Bool} : flagOf b = some f ↔ b = if f then 1 else 0 := by
  constructor
  · intro h
    unfold flagOf at h
    split_ifs at h <;> cases h <;> assumption
  · rintro rfl
    cases f <;> rfl

/-- A body that is read lays out the channel and the setup. -/
theorem readChannelSetup_sound {body : List Byte} {c : ChanIx} {new : ChannelSetup}
    (h : readChannelSetup body = .ok (c, new)) : new.InRange ∧ body = bytes8 c.val ++ new.bytes := by
  unfold readChannelSetup at h
  split at h
  · split at h
    · next hc hm hs hi =>
      split at h
      · cases h
      · next hrange =>
        cases h
        refine ⟨?_, ?_⟩
        · simp only [ChannelSetup.InRange]
          omega
        · simp only [ChannelSetup.bytes, bytes16_number16, bytes8, flagBytes, ← below_iff.mp hc,
            ← ChannelMode.ofCode_iff.mp hm, ← CaptureSense.ofCode_iff.mp hs, ← flagOf_iff.mp hi, BitVec.ofNat_toNat,
            BitVec.setWidth_eq]
          rfl
    · cases h
  · cases h

/-- The bytes of a setup in range are read back. -/
theorem readChannelSetup_bytes {c : ChanIx} {new : ChannelSetup} (h : new.InRange) :
    readChannelSetup (bytes8 c.val ++ new.bytes) = .ok (c, new) := by
  obtain ⟨filter, thresholdLow, threshold, quotaLow, quota, linger⟩ := h
  have hf := number16_bytes16 (n := new.filter) (by omega)
  have hq := number16_bytes16 (n := new.quota) (by omega)
  have hg := number16_bytes16 (n := new.linger) (by omega)
  have ht : (BitVec.ofNat 8 new.threshold).toNat = new.threshold := by
    rw [BitVec.toNat_ofNat]
    omega
  have inRange : ¬(1023 < new.filter ∨ new.threshold = 0 ∨ 48 < new.threshold ∨ new.quota = 0 ∨ 256 < new.quota ∨
      60000 < new.linger) := by omega
  simp only [readChannelSetup, ChannelSetup.bytes, bytes8, bytes16, flagBytes, List.cons_append, List.nil_append,
    below_iff.mpr rfl, ChannelMode.ofCode_iff.mpr rfl, CaptureSense.ofCode_iff.mpr rfl, flagOf_iff.mpr rfl, hf, hq, hg, ht,
    if_neg inRange]

/-- A body of the right length is read or is answered VALUE: its length is FORMAT's one concern (R169). -/
theorem readChannelSetup_length {body : List Byte} (h : body.length = 11) :
    readChannelSetup body = .error .value ∨ ∃ c new, readChannelSetup body = .ok (c, new) := by
  unfold readChannelSetup
  split
  · split
    · split
      · exact .inl rfl
      · exact .inr ⟨_, _, rfl⟩
    · exact .inl rfl
  · next wrong =>
    match body, h with
    | [c, m, sn, f0, f1, iv, th, q0, q1, g0, g1], _ => exact absurd rfl (wrong c m sn f0 f1 iv th q0 q1 g0 g1)

theorem readChannelSetup_value {body : List Byte} (h : body.length = 11)
    (hn : ∀ (c : ChanIx) (new : ChannelSetup), new.InRange → body ≠ bytes8 c.val ++ new.bytes) :
    readChannelSetup body = .error .value := by
  rcases readChannelSetup_length h with hv | ⟨c, new, hr⟩
  · exact hv
  · obtain ⟨range, laid⟩ := readChannelSetup_sound hr
    exact absurd laid (hn c new range)

theorem readChannelQuery_value {c f : Byte} (h : 15 < c.toNat ∨ 1 < f.toNat) : readChannelQuery [c, f] = .error .value := by
  simp only [readChannelQuery]
  split
  · next hc hf =>
    rcases h with h | h
    · simp [below_of_le h] at hc
    · have none_read : flagOf f = none := levelOf_of_lt h
      simp [none_read] at hf
  · rfl

theorem readChannelQuery_ok {b f : Byte} {c : ChanIx} (hc : c.val = b.toNat) (hf : f.toNat ≤ 1) :
    readChannelQuery [b, f] = .ok (c, decide (f = 1)) := by
  have clear : flagOf f = some (decide (f = 1)) := levelOf_of_le hf
  simp only [readChannelQuery, below_of_eq hc, clear]

/-! ### The states in which a setup is held (R103) -/

/-- An entry could wait on the channel: it is started on it, and it is WAITING, or PENDING or TRAILING with arms left and no
cancel flag (R103). -/
abbrev ChannelClaimed (s : State) (c : ChanIx) : Prop :=
  ∃ i : EntryIx, ∃ e ∈ s.entry i, (∃ sense d a, e.plan.start = .onTrigger c sense d a) ∧
    (e.progress = .waiting ∨ (e.armed = true ∧ (∃ due r, e.progress = .pending due r)) ∨
      (e.armed = true ∧ ∃ due lead r, e.progress = .trailing due lead r false))

theorem Entry.couldWait_iff (e : Entry) :
    e.couldWait = true ↔ e.progress = .waiting ∨ (e.armed = true ∧ (∃ due r, e.progress = .pending due r)) ∨
      (e.armed = true ∧ ∃ due lead r, e.progress = .trailing due lead r false) := by
  unfold Entry.couldWait
  cases e.progress <;> simp

theorem State.channelHeld_iff_claimed (s : State) (c : ChanIx) : s.channelHeld c = true ↔ ChannelClaimed s c := by
  simp only [State.channelHeld_iff, Entry.couldWaitOn_iff, Entry.couldWait_iff, Start.IsOn]

theorem State.setupHeld_iff (s : State) (c : ChanIx) (new : ChannelSetup) :
    s.setupHeld c new = true ↔ new.quota < s.heldCount c ∨ (new.mode = .off ∧ ChannelClaimed s c) := by
  rw [State.setupHeld, Bool.or_eq_true, Bool.and_eq_true, decide_eq_true_iff, decide_eq_true_iff,
    State.channelHeld_iff_claimed]

/-! ### The handlers, case by case -/

section Handlers

variable {s : State} {body : List Byte} {c : ChanIx}

theorem channelSetupRequest_error {st : Status} (hr : readChannelSetup body = .error st) :
    channelSetupRequest body s = refuse st s := by
  simp only [channelSetupRequest, hr]

theorem channelSetupRequest_held {new : ChannelSetup} (hr : readChannelSetup body = .ok (c, new))
    (hh : s.setupHeld c new = true) : channelSetupRequest body s = refuse .state s := by
  simp only [channelSetupRequest, hr, if_pos hh]

theorem channelSetupRequest_free {new : ChannelSetup} (hr : readChannelSetup body = .ok (c, new))
    (hh : ¬s.setupHeld c new = true) :
    channelSetupRequest body s =
      accept (.channelSetup new (s.channel c).filtered ((s.channel c).abandons new))
        (s.setChannel c ((s.channel c).withSetup new)) := by
  simp only [channelSetupRequest, hr, if_neg hh]

theorem channelQueryRequest_error {st : Status} (hr : readChannelQuery body = .error st) :
    channelQueryRequest body s = refuse st s := by
  simp only [channelQueryRequest, hr]

/-- With the clear flag off the channel is written as it stands. -/
theorem channelQueryRequest_ok {clear : Bool} (hr : readChannelQuery body = .ok (c, clear)) :
    channelQueryRequest body s =
      accept (.channelQuery (s.channelView c))
        (s.setChannel c { s.channel c with glitches := if clear then 0 else (s.channel c).glitches }) := by
  simp only [channelQueryRequest, hr]
  cases clear with
  | false => exact congrArg (accept _) (s.setChannel_self c).symm
  | true => rfl

end Handlers

/-! ### The statement -/

/-- Settles O53: the reader's answer, then the test of R103, give the case. -/
theorem channelSetupAndQuery : Obligations.ChannelSetupAndQuery := by
  refine ⟨⟨?_, ?_⟩, ?_⟩
  · intro s seq c new range hx body ch claimed abandoned
    have short : body.length ≤ 512 := by simp [body, ChannelSetup.bytes, bytes8, bytes16, flagBytes]
    have read : readChannelSetup body = .ok (c, new) := readChannelSetup_bytes range
    refine ⟨fun hh => ?_, fun hq hc => ?_⟩
    · exact exec_refused (k := .channelSetup) hx short
        (channelSetupRequest_held (s := s.dequeued) read ((s.setupHeld_iff c new).mpr hh))
    · have free : ¬s.setupHeld c new = true := by
        rw [State.setupHeld_iff, not_or]
        exact ⟨not_lt.mpr hq, hc⟩
      have answered := exec_accepted (k := .channelSetup) hx short
        (channelSetupRequest_free (s := s.dequeued) read free) rfl rfl
      exact answered
  · intro s seq body hl hx hn
    exact exec_refused (k := .channelSetup) hx (by omega) (channelSetupRequest_error (readChannelSetup_value hl hn))
  · intro s seq cb flag hx
    have short : ([cb, flag] : List Byte).length ≤ 512 := by simp
    refine ⟨fun hv => exec_refused (k := .channelQuery) hx short (channelQueryRequest_error (readChannelQuery_value hv)), ?_⟩
    intro c hc hf ch view
    have answered := exec_accepted (k := .channelQuery) hx short
      (channelQueryRequest_ok (s := s.dequeued) (readChannelQuery_ok hc hf)) rfl rfl
    refine answered.trans ?_
    simp only [decide_eq_true_iff]
    rfl

end Sys2Proof.Machine
end

section
/-! PROOF. The events of the input lines (sections 6.2 to 6.5 and 7.3): the filter window opens, returns and ends in an accepted
edge, which goes to the destinations of Table 6-2. -/

namespace Sys2Proof.Machine

/-! ### The filter window (R91, R92, R104) -/

section FilterWindow

variable {s : State} {c : ChanIx}

theorem exec_glitch_closed (hh : s.hold = none) (hw : (s.channel c).window = none) :
    exec (.glitch c) s = .next (s.setChannel c (s.channel c).settle) := by
  simp [exec, execGlitch, hh, hw]

/-- A channel that has left the filtered level, with its window open since the count `now`. -/
def Channel.opened (ch : Channel) (now : Tick) : Channel := { ch with raw := !ch.filtered, window := some ⟨now, 0⟩ }

theorem State.rawTransition_filtered (hf : (s.channel c).setup.filter ≠ 0) :
    s.rawTransition c = s.setChannel c ((s.channel c).opened s.now) := if_neg hf

theorem State.rawTransition_unfiltered (hf : (s.channel c).setup.filter = 0) :
    s.rawTransition c = (s.setChannel c ((s.channel c).opened s.now)).acceptEdge c s.now := if_pos hf

/-- The line of an opened window is away from the filtered level already. -/
theorem exec_edgeAccepted_opened (now : Tick) :
    exec (.edgeAccepted c) (s.setChannel c ((s.channel c).opened now)) =
      .next ((s.setChannel c ((s.channel c).opened now)).acceptEdge c now) := by
  rw [exec_edgeAccepted (w := ⟨now, 0⟩) (by rw [State.channel_setChannel_self]; rfl), State.channel_setChannel_self,
    State.setChannel_setChannel]
  rfl

end FilterWindow

/-- Settles O54: a raw transition by the filter, a return by the window. -/
theorem filterWindowActs : Obligations.FilterWindowActs := by
  intro s c ch opened
  refine ⟨fun hh hw hf => ?_, fun hh hw hf => ?_, exec_glitch, exec_glitch_closed⟩
  · rw [exec_rawTransition hh hw, State.rawTransition_filtered hf]
    rfl
  · rw [exec_rawTransition hh hw, State.rawTransition_unfiltered hf]
    exact (exec_edgeAccepted_opened s.now).symm

/-! ### The journal takes or loses a selected edge (R111, R112) -/

theorem State.heldCount_setChannel {s : State} {c : ChanIx} {ch : Channel}
    (h : ch.unreported = (s.channel c).unreported) : (s.setChannel c ch).heldCount = s.heldCount := by
  funext d
  unfold State.heldCount
  rw [State.channel_setChannel]
  split
  · next hd => rw [h, hd]; rfl
  · rfl

/-- A place is free and the channel is below its quota (R107, R110). -/
abbrev State.HasRoom (s : State) (c : ChanIx) : Prop :=
  ((List.finRange 16).map s.heldCount).sum < 256 ∧ s.heldCount c < (s.channel c).setup.quota

theorem State.freePlaces_pos_iff (s : State) :
    0 < s.freePlaces ↔ ((List.finRange 16).map s.heldCount).sum < 256 := Nat.sub_pos_iff_lt

section Journal

variable {s : State} {c : ChanIx} (r : Record)

theorem State.journal_takes (h : s.HasRoom c) : s.journal c r = s.setChannel c ((s.channel c).take r) := by
  obtain ⟨hplace, hquota⟩ := h
  exact if_pos ⟨s.freePlaces_pos_iff.mpr hplace, hquota⟩

theorem State.journal_loses (h : ¬s.HasRoom c) : s.journal c r = s.setChannel c (s.channel c).lose :=
  if_neg fun ⟨hplace, hquota⟩ => h ⟨s.freePlaces_pos_iff.mp hplace, hquota⟩

end Journal

/-! ### A selected edge (R96, R97) -/

theorem CaptureSense.selects_iff (sense : CaptureSense) (edge : Edge) :
    sense.selects edge = true ↔
      sense = .both ∨ (sense = .rise ∧ edge = .rise) ∨ (sense = .fall ∧ edge = .fall) := by
  cases sense <;> cases edge <;> simp [CaptureSense.selects]

section Capture

variable {s : State} {c : ChanIx} (edge : Edge) (stamp : Tick)

/-- The reference takes no place of the journal. -/
theorem State.hasRoom_reference (ref : Option Tick) :
    (s.setChannel c { s.channel c with reference := ref }).HasRoom c ↔ s.HasRoom c := by
  unfold State.HasRoom
  rw [State.heldCount_setChannel (by rfl), State.channel_setChannel_self]

theorem State.captureEdge_takes (h : s.HasRoom c) :
    s.captureEdge c edge stamp =
      s.setChannel c (({ s.channel c with reference := some stamp } : Channel).take
        ⟨edge, stamp, (s.channel c).intervalAt stamp, false⟩) := by
  unfold State.captureEdge
  dsimp only
  rw [State.journal_takes _ ((State.hasRoom_reference _).mpr h), State.channel_setChannel_self, State.setChannel_setChannel]

theorem State.captureEdge_loses (h : ¬s.HasRoom c) :
    s.captureEdge c edge stamp = s.setChannel c ({ s.channel c with reference := some stamp } : Channel).lose := by
  unfold State.captureEdge
  dsimp only
  rw [State.journal_loses _ (mt (State.hasRoom_reference _).mp h), State.channel_setChannel_self,
    State.setChannel_setChannel]

end Capture

/-! ### The destinations of Table 6-2 (R95) -/

section Destinations

variable {s : State} {c : ChanIx} (edge : Edge) (stamp : Tick)

theorem State.distribute_off (hm : (s.channel c).setup.mode = .off) : s.distribute c edge stamp = s := by
  simp only [State.distribute, hm]

theorem State.distribute_watch (hm : (s.channel c).setup.mode = .watch) :
    s.distribute c edge stamp = (s.setChannel c ((s.channel c).watchEdge stamp)).offerTrigger c edge stamp := by
  simp only [State.distribute, hm]

variable (hm : (s.channel c).setup.mode = .capture)
include hm

theorem State.distribute_stopped (hr : ¬s.timebase.state = .running) : s.distribute c edge stamp = s := by
  simp only [State.distribute, hm, State.running_iff, if_neg hr]

theorem State.distribute_unselected (hr : s.timebase.state = .running)
    (hs : ¬(s.channel c).setup.sense.selects edge = true) :
    s.distribute c edge stamp = s.offerTrigger c edge stamp := by
  simp only [State.distribute, hm, State.running_iff, if_pos hr, if_neg hs]

theorem State.distribute_selected (hr : s.timebase.state = .running)
    (hs : (s.channel c).setup.sense.selects edge = true) :
    s.distribute c edge stamp = (s.captureEdge c edge stamp).offerTrigger c edge stamp := by
  simp only [State.distribute, hm, State.running_iff, if_pos hr, if_pos hs]

end Destinations

/-! ### The acceptance (R91) -/

/-- The channel once an edge is accepted: the filtered level is the line's, and the window is closed. -/
def Channel.accepted (ch : Channel) : Channel :=
  { ch with raw := !ch.filtered, filtered := !ch.filtered, window := none }

theorem edgeTo_not (b : Bool) : edgeTo (!b) = if b then .fall else .rise := by cases b <;> rfl

/-- The edge is distributed in the state with the new filtered level. -/
theorem exec_edgeAccepted_distributes {s : State} {c : ChanIx} {w : Window} (hw : (s.channel c).window = some w) :
    exec (.edgeAccepted c) s =
      .next ((s.setChannel c (s.channel c).accepted).distribute c
        (if (s.channel c).filtered then .fall else .rise) w.stamp) := by
  rw [exec_edgeAccepted hw, State.acceptEdge, State.channel_setChannel_self, State.setChannel_setChannel, edgeTo_not]
  rfl

theorem State.hasRoom_accepted (s : State) (c : ChanIx) : (s.setChannel c (s.channel c).accepted).HasRoom c ↔ s.HasRoom c := by
  unfold State.HasRoom
  rw [State.heldCount_setChannel (by rfl), State.channel_setChannel_self]
  rfl

/-- Settles O56: the acceptance distributes the edge, and the mode, the timebase, the sense and the room choose the
destination. -/
theorem edgeDistributed : Obligations.EdgeDistributed := by
  intro s c w hw ch edge base offered running selected room interval
  let u := s.setChannel c base
  have distributed : exec (.edgeAccepted c) s = .next (u.distribute c edge w.stamp) := exec_edgeAccepted_distributes hw
  have channel : u.channel c = base := s.channel_setChannel_self c base
  have mode : (u.channel c).setup.mode = ch.setup.mode := by rw [channel]
  have sense : (u.channel c).setup.sense.selects edge = true ↔ selected := by
    rw [channel]
    exact CaptureSense.selects_iff _ _
  have merged : ∀ ch' : Channel, u.setChannel c ch' = s.setChannel c ch' := s.setChannel_setChannel c base
  rw [distributed]
  refine ⟨?_, fun hm hr hs => ?_, fun hm hr hs hroom => ?_, fun hm hr hs hroom => ?_, fun hm => ?_⟩
  · rintro (hm | ⟨hm, hr⟩)
    · rw [State.distribute_off _ _ (mode.trans hm)]
    · rw [State.distribute_stopped _ _ (mode.trans hm) hr]
  · rw [State.distribute_unselected _ _ (mode.trans hm) hr (mt sense.mp hs)]
  · rw [State.distribute_selected _ _ (mode.trans hm) hr (sense.mpr hs),
      State.captureEdge_takes (s := u) _ _ ((s.hasRoom_accepted c).mpr hroom), merged, channel]
    rfl
  · rw [State.distribute_selected _ _ (mode.trans hm) hr (sense.mpr hs),
      State.captureEdge_loses (s := u) _ _ (mt (s.hasRoom_accepted c).mp hroom), merged, channel]
    rfl
  · rw [State.distribute_watch _ _ (mode.trans hm), merged, channel]
    rfl

end Sys2Proof.Machine
end

section
/-! PROOF. The places of the Capture Journal (sections 7.1 to 7.3 and 7.6): what a channel holds are the records of its list
and those of its batch reports, and what each change of a channel or of the Report Queue does to the counts. -/

namespace Sys2Proof.Machine

/-! ### The records of the batch reports (R107) -/

theorem batchRecords_append (l l' : List Report) (c : ChanIx) :
    batchRecords (l ++ l') c = batchRecords l c ++ batchRecords l' c := List.flatMap_append

theorem batchRecords_singleton (r : Report) (c : ChanIx) : batchRecords [r] c = r.content.recordsOf c := by
  simp [batchRecords]

/-- The records of the batch reports are in what the reports carry: their marks do not count. -/
theorem batchRecords_congr {l l' : List Report} (h : l.map Report.content = l'.map Report.content) (c : ChanIx) :
    batchRecords l c = batchRecords l' c := by
  have contents : ∀ l : List Report, batchRecords l c = (l.map Report.content).flatMap fun r => r.recordsOf c :=
    fun l => (List.flatMap_map Report.content (fun r => r.recordsOf c) l).symm
  rw [contents, contents, h]

/-- An acknowledgement frees the records of the reports that leave, and no others (R122). -/
theorem length_batchRecords_drop_le (l : List Report) (m : Nat) (c : ChanIx) :
    (batchRecords (l.drop m) c).length ≤ (batchRecords l c).length := by
  calc (batchRecords (l.drop m) c).length
      ≤ (batchRecords (l.take m) c ++ batchRecords (l.drop m) c).length := by simp
    _ = (batchRecords l c).length := by rw [← batchRecords_append, List.take_append_drop]

theorem map_content_markSent (l : List Report) : (markSent l).map Report.content = l.map Report.content := by
  unfold markSent
  rw [List.map_map]
  refine List.map_congr_left fun r _ => ?_
  dsimp only [Function.comp_apply]
  split <;> rfl

theorem map_content_take (q : ReportQueue) (k : Nat) :
    (q.take k).reports.map Report.content = q.reports.map Report.content := by
  apply List.ext_getElem
  · simp [ReportQueue.take]
  · intro j _ _
    simp only [ReportQueue.take, List.getElem_map, List.getElem_modify]
    split <;> rfl

theorem map_content_frameEnded (q : ReportQueue) :
    q.frameEnded.reports.map Report.content = q.reports.map Report.content := by
  simp [ReportQueue.frameEnded]

/-! ### The condition under a change -/

/-- `JournalOk` with its two parts named: the quotas (R110) and the places (R107). -/
structure JournalFits (s : State) : Prop where
  quota : ∀ c, s.heldCount c ≤ (s.channel c).setup.quota
  places : s.heldTotal ≤ Config.recordPlaces

theorem journalOk_iff (s : State) : JournalOk s ↔ JournalFits s :=
  ⟨fun ⟨quota, places⟩ => ⟨quota, places⟩, fun h => ⟨h.quota, h.places⟩⟩

/-- No channel holds more after the change, and the quotas stand (R110). -/
structure HoldsNoMore (s t : State) : Prop where
  held : ∀ c, t.heldCount c ≤ s.heldCount c
  quota : ∀ c, (t.channel c).setup.quota = (s.channel c).setup.quota

theorem State.heldTotal_eq_sum (s : State) : s.heldTotal = ∑ c, s.heldCount c := (Fin.sum_univ_def _).symm

theorem JournalFits.holdsNoMore {s t : State} (h : JournalFits s) (k : HoldsNoMore s t) : JournalFits t := by
  obtain ⟨quota, places⟩ := h
  refine ⟨fun c => ?_, ?_⟩
  · rw [k.quota c]
    exact (k.held c).trans (quota c)
  · rw [State.heldTotal_eq_sum] at places ⊢
    exact (Finset.sum_le_sum fun c _ => k.held c).trans places

/-- The condition looks at the channels and the reports in the queue alone. -/
theorem JournalFits.congr {s t : State} (h : JournalFits s) (hc : t.channels = s.channels) (hr : t.reports = s.reports) :
    JournalFits t := by
  have channel : t.channel = s.channel := by
    funext c
    unfold State.channel
    rw [hc]
  refine h.holdsNoMore ⟨fun c => ?_, fun c => ?_⟩
  · simp only [State.heldCount, channel, hr, le_refl]
  · rw [channel]

theorem journalFits_empty {s : State} (h : ∀ c, s.heldCount c = 0) : JournalFits s := by
  refine ⟨fun c => ?_, ?_⟩
  · rw [h c]
    exact Nat.zero_le _
  · rw [State.heldTotal_eq_sum, Finset.sum_eq_zero fun c _ => h c]
    exact Nat.zero_le _

section Writes

variable {s : State} (h : JournalFits s)
include h

theorem JournalFits.outsideTimeline {t : State} (k : SameOutsideTimeline s t) : JournalFits t := h.congr k.channels k.reports

theorem JournalFits.setLink (l : Link) : JournalFits (s.setLink l) := h.congr rfl rfl

theorem JournalFits.setHalt (u : HaltUnit) : JournalFits (s.setHalt u) := h.congr rfl rfl

theorem JournalFits.setTimebase (t : Timebase) : JournalFits (s.setTimebase t) := h.congr rfl rfl

/-- A queue that holds no more records of any channel. -/
theorem JournalFits.setReports {q : ReportQueue}
    (hq : ∀ c, (batchRecords q.reports c).length ≤ (batchRecords s.reports.reports c).length) :
    JournalFits (s.setReports q) :=
  h.holdsNoMore ⟨fun c => Nat.add_le_add_left (hq c) _, fun _ => rfl⟩

/-- A queue whose reports carry what they carried. -/
theorem JournalFits.sameContents {q : ReportQueue}
    (hq : q.reports.map Report.content = s.reports.reports.map Report.content) : JournalFits (s.setReports q) :=
  h.setReports fun c => (congrArg List.length (batchRecords_congr hq c)).le

/-- A report of another kind than BATCH joins the queue. -/
theorem JournalFits.push {q : ReportQueue} {content : ReportContent} (hb : content.isBatch = false)
    (hq : q.reports = (s.reports.push content).reports) : JournalFits (s.setReports q) := by
  refine h.setReports fun c => ?_
  have carries_none : content.recordsOf c = [] := by
    cases content with
    | batch => cases hb
    | _ => rfl
  rw [hq, ReportQueue.push, batchRecords_append, batchRecords_singleton, carries_none, List.append_nil]

/-- A channel that keeps its list and its quota. -/
theorem JournalFits.sameRecords (c : ChanIx) {ch : Channel} (hu : ch.unreported = (s.channel c).unreported)
    (hq : ch.setup.quota = (s.channel c).setup.quota) : JournalFits (s.setChannel c ch) := by
  refine h.holdsNoMore ⟨fun d => ?_, fun d => ?_⟩
  · rw [State.heldCount_setChannel hu]
  · rw [State.channel_setChannel]
    split
    · next hcd => rw [hq, hcd]
    · rfl

/-- A channel that keeps its list and takes a quota that its records fit (R103). -/
theorem JournalFits.newQuota (c : ChanIx) {ch : Channel} (hu : ch.unreported = (s.channel c).unreported)
    (hq : s.heldCount c ≤ ch.setup.quota) : JournalFits (s.setChannel c ch) := by
  obtain ⟨quota, places⟩ := h
  have held := State.heldCount_setChannel hu
  refine ⟨fun d => ?_, ?_⟩
  · rw [held, State.channel_setChannel]
    split
    · next hcd => exact hcd ▸ hq
    · exact quota d
  · rwa [State.heldTotal, held]

end Writes

theorem JournalFits.foldl {α : Type} {f : State → α → State}
    (hf : ∀ {u : State} (a : α), JournalFits u → JournalFits (f u a)) (l : List α) {s : State} (h : JournalFits s) : JournalFits (l.foldl f s) := by
  induction l generalizing s with
  | nil => exact h
  | cons a l ih => exact ih (hf a h)

/-! ### The journal takes a record (R107, R110, R111) -/

/-- A taken record is one more for its channel. -/
theorem State.heldCount_take (s : State) (c d : ChanIx) (r : Record) :
    (s.setChannel c ((s.channel c).take r)).heldCount d = s.heldCount d + if c = d then 1 else 0 := by
  unfold State.heldCount
  rw [State.channel_setChannel]
  split
  · next hcd =>
    subst hcd
    simp only [Channel.take, List.length_append, List.length_singleton, State.setChannel_reports]
    omega
  · rfl

theorem State.heldTotal_take (s : State) (c : ChanIx) (r : Record) :
    (s.setChannel c ((s.channel c).take r)).heldTotal = s.heldTotal + 1 := by
  simp only [State.heldTotal_eq_sum, State.heldCount_take, Finset.sum_add_distrib, Finset.sum_ite_eq, Finset.mem_univ,
    if_true]

/-- A record is taken only with a place free and its channel below its quota; a loss takes no place (R111, R112). -/
theorem JournalFits.journal {s : State} (h : JournalFits s) (c : ChanIx) (r : Record) : JournalFits (s.journal c r) := by
  by_cases room : s.HasRoom c
  · rw [State.journal_takes r room]
    obtain ⟨quota, -⟩ := h
    obtain ⟨place, below⟩ := room
    refine ⟨fun d => ?_, ?_⟩
    · rw [State.heldCount_take, State.channel_setChannel]
      split
      · next hcd => exact hcd ▸ below
      · exact quota d
    · rw [State.heldTotal_take]
      exact place
  · rw [State.journal_loses r room]
    exact h.sameRecords c rfl rfl

/-! ### Batches (R119, R123) -/

/-- The admission of a batch moves records from the list to the queue (R107, R119). -/
theorem State.heldCount_admitBatch (s : State) (c d : ChanIx) : (s.admitBatch c).heldCount d = s.heldCount d := by
  have queued : batchRecords (s.admitBatch c).reports.reports d =
      batchRecords s.reports.reports d ++ ((s.channel c).batch c).recordsOf d := by
    rw [← batchRecords_singleton ⟨s.reports.nextSeq, (s.channel c).batch c, false, false, false⟩ d,
      ← batchRecords_append]
    rfl
  unfold State.heldCount
  rw [queued, List.length_append]
  change ((s.setChannel c (s.channel c).afterBatch).channel d).unreported.length + _ = _
  rw [State.channel_setChannel]
  by_cases hcd : c = d
  · subst hcd
    simp only [if_true, Channel.afterBatch, Channel.batch, ReportContent.recordsOf, List.length_drop, List.length_take]
    omega
  · simp only [if_neg hcd, Channel.batch, ReportContent.recordsOf, List.length_nil]
    omega

theorem JournalFits.admitBatch {s : State} (h : JournalFits s) (c : ChanIx) : JournalFits (s.admitBatch c) := by
  refine h.holdsNoMore ⟨fun d => (s.heldCount_admitBatch c d).le, fun d => ?_⟩
  change ((s.setChannel c (s.channel c).afterBatch).channel d).setup.quota = _
  rw [State.channel_setChannel]
  split
  · next hcd => rw [← hcd]; rfl
  · rfl

theorem State.channel_returnBatches (s : State) (reports : List Report) (c : ChanIx) :
    (s.returnBatches reports).channel c =
      (s.channel c).takeBack (batchRecords reports c) (batchLost reports c) := by
  simp [State.returnBatches, State.channel]

/-- The records of the reports that LINK-RESET discards return to the lists (R123, R146). -/
theorem State.heldCount_emptied (s : State) (c : ChanIx) :
    ((s.returnBatches s.reports.reports).setReports s.reports.emptied).heldCount c = s.heldCount c := by
  have emptied : batchRecords s.reports.emptied.reports c = [] := rfl
  unfold State.heldCount
  rw [State.channel_setReports, State.channel_returnBatches, State.setReports_reports, emptied]
  simp only [Channel.takeBack, List.length_append, List.length_nil]
  omega

theorem JournalFits.emptied {s : State} (h : JournalFits s) :
    JournalFits ((s.returnBatches s.reports.reports).setReports s.reports.emptied) := by
  refine h.holdsNoMore ⟨fun c => (s.heldCount_emptied c).le, fun c => ?_⟩
  rw [State.channel_setReports, State.channel_returnBatches]
  rfl

end Sys2Proof.Machine
end

section
/-! PROOF. Every command and every period keeps every channel within its quota and the journal within its 256 places: only an
accepted edge adds a record, only CHANNEL-SETUP changes a quota, and what leaves a list for a batch is still held. -/

namespace Sys2Proof.Machine

/-! ### Input channels and STOP (chapters 5 and 6) -/

section Events

variable {s : State} (h : JournalFits s)
include h

theorem JournalFits.offerTrigger (c : ChanIx) (edge : Edge) (stamp : Tick) : JournalFits (s.offerTrigger c edge stamp) :=
  h.outsideTimeline (sameOutside_offerTrigger s c edge stamp)

theorem JournalFits.captureEdge (c : ChanIx) (edge : Edge) (stamp : Tick) : JournalFits (s.captureEdge c edge stamp) := by
  have referred : JournalFits (s.setChannel c { s.channel c with reference := some stamp }) := h.sameRecords c rfl rfl
  exact referred.journal c _

theorem JournalFits.distribute (c : ChanIx) (edge : Edge) (stamp : Tick) : JournalFits (s.distribute c edge stamp) := by
  unfold State.distribute
  split
  · exact h
  · split
    · refine JournalFits.offerTrigger ?_ c edge stamp
      split
      · exact h.captureEdge c edge stamp
      · exact h
    · exact h
  · exact JournalFits.offerTrigger (h.sameRecords c (by rfl) (by rfl)) c edge stamp

theorem JournalFits.acceptEdge (c : ChanIx) (stamp : Tick) : JournalFits (s.acceptEdge c stamp) := by
  refine JournalFits.distribute ?_ c _ stamp
  exact h.sameRecords c rfl rfl

theorem JournalFits.rawTransition (c : ChanIx) : JournalFits (s.rawTransition c) := by
  have opened : JournalFits (s.setChannel c ((s.channel c).opened s.now)) := h.sameRecords c rfl rfl
  by_cases hf : (s.channel c).setup.filter = 0
  · rw [State.rawTransition_unfiltered hf]
    exact opened.acceptEdge c _
  · rw [State.rawTransition_filtered hf]
    exact opened

theorem JournalFits.restartReferences : JournalFits s.restartReferences := by
  refine h.holdsNoMore ⟨fun c => ?_, fun c => ?_⟩ <;> simp [State.restartReferences, State.heldCount]

theorem JournalFits.addCause (c : Causes) : JournalFits (s.addCause c) := by
  obtain ⟨-, channels, reports, -⟩ := s.addCause_frame c
  exact h.congr channels reports

theorem JournalFits.acceptStop : JournalFits s.acceptStop := by
  unfold State.acceptStop
  dsimp only
  split
  · refine JournalFits.setHalt ?_ _
    split
    · exact (h.setHalt _).addCause _
    · exact h.setHalt _
  · exact h.setHalt _

/-! ### The Report Queue and the link (chapters 8 to 10) -/

theorem JournalFits.reportTimerExpires : JournalFits s.reportTimerExpires := by
  unfold State.reportTimerExpires
  dsimp only
  split
  · exact h.sameContents (map_content_markSent _)
  · have silent : JournalFits (s.setReports { s.reports with timer := none, state := .silent }) := h.sameContents rfl
    split
    · exact silent.addCause _
    · exact silent

theorem JournalFits.transmitChoice : JournalFits s.transmitChoice := by
  rcases s.transmitChoice_cases with e | ⟨a, -, -, -, e⟩ | ⟨k, r, -, -, -, -, -, e⟩ <;> rw [e]
  · exact h
  · exact h.setLink _
  · exact (h.sameContents (map_content_take _ k)).setLink _

theorem JournalFits.offerFrame (f : Frame) : JournalFits (s.offerFrame f) := by
  unfold State.offerFrame
  split <;> exact h.setLink _

theorem JournalFits.receive (value : Byte) (stopBit : Bool) : JournalFits (s.receive value stopBit) := by
  obtain ⟨l, hl⟩ := s.receive_onlyLink value stopBit
  exact hl ▸ h.setLink l

end Events

/-! ### Device reset (sections 10.5, 10.6) -/

theorem journalFits_beginReset (s : State) (cause : ResetCause) : JournalFits (s.beginReset cause) :=
  journalFits_empty fun c => by
    simp [State.heldCount, State.channel, State.beginReset, Channel.afterReset, ReportQueue.afterReset, batchRecords]

theorem journalFits_afterReset (s : State) (cause : ResetCause) : JournalFits (s.afterReset cause) :=
  journalFits_empty fun c => by
    simp [State.heldCount, State.channel, State.afterReset, Channel.afterReset, ReportQueue.withStart, batchRecords,
      ReportContent.recordsOf]

theorem journalFits_endReset (s : State) (cause : ResetCause) : JournalFits (s.endReset cause) := by
  have fresh := journalFits_afterReset s cause
  unfold State.endReset
  refine JournalFits.transmitChoice ?_
  split
  · exact fresh.addCause _
  · exact fresh

section Freed

variable {s : State} (h : JournalFits s)
include h

theorem JournalFits.frameEnds : JournalFits s.frameEnds := by
  unfold State.frameEnds
  split
  · exact h.transmitChoice
  · split
    · exact journalFits_beginReset _ _
    · refine JournalFits.transmitChoice ?_
      split
      · exact h.setLink _
      · exact (h.setLink _).sameContents (map_content_frameEnded _)

/-! ### Admission (section 8.2) -/

theorem JournalFits.admitItem (item : Ready) : JournalFits (s.admitItem item) := by
  cases item with
  | halt =>
    change JournalFits s.admitHalt
    unfold State.admitHalt
    split
    · exact (h.setHalt _).push rfl rfl
    · exact h
  | entry i =>
    change JournalFits (s.admitEntry i)
    unfold State.admitEntry
    split
    · split
      · exact (h.outsideTimeline (sameOutside_setEntry s i _)).push rfl rfl
      · exact h
    · exact h
  | level c =>
    change JournalFits (s.admitLevel c)
    unfold State.admitLevel
    split
    · exact JournalFits.push (h.sameRecords c (by rfl) (by rfl)) rfl rfl
    · exact h
  | batch c => exact h.admitBatch c

theorem JournalFits.admitOne : JournalFits s.admitOne := by
  unfold State.admitOne
  split
  · split
    · exact (h.admitItem _).transmitChoice
    · exact h
  · exact h

end Freed

/-! ### Requests that leave the channels and the reports alone -/

/-- A handler keeps the condition. -/
def Handler.KeepsJournal (f : Handler) : Prop :=
  ∀ (body : List Byte) (s : State), JournalFits s → JournalFits (f body s).2

/-- A handler leaves the channels and the Report Queue alone. -/
def Handler.LeavesJournal (f : Handler) : Prop :=
  ∀ (body : List Byte) (s : State), (f body s).2.channels = s.channels ∧ (f body s).2.reports = s.reports

theorem Handler.LeavesJournal.keeps {f : Handler} (hf : f.LeavesJournal) : f.KeepsJournal := by
  intro body s h
  obtain ⟨channels, reports⟩ := hf body s
  exact h.congr channels reports

theorem Handler.leavesJournal_of_reads {f : Handler} (hf : ∀ body s, (f body s).2 = s) : f.LeavesJournal := by
  intro body s
  rw [hf]
  exact ⟨rfl, rfl⟩

theorem leavesJournal_statusRequest : Handler.LeavesJournal statusRequest := by
  intro body s
  unfold statusRequest
  split
  · exact ⟨rfl, rfl⟩
  · dsimp only [accept]
    split <;> exact ⟨rfl, rfl⟩

theorem leavesJournal_restartRequest : Handler.LeavesJournal restartRequest := by
  intro body s
  unfold restartRequest
  split <;> exact ⟨rfl, rfl⟩

theorem leavesJournal_timeSetupRequest : Handler.LeavesJournal timeSetupRequest := by
  intro body s
  unfold timeSetupRequest
  split
  · exact ⟨rfl, rfl⟩
  · split <;> exact ⟨rfl, rfl⟩

theorem leavesJournal_timeStopRequest : Handler.LeavesJournal timeStopRequest := by
  intro body s
  unfold timeStopRequest
  split
  · exact ⟨rfl, rfl⟩
  · split <;> exact ⟨rfl, rfl⟩

theorem sameOutside_placeAt (s : State) (i : EntryIx) (p : Plan) : SameOutsideTimeline s (s.placeAt i p).2 := by
  unfold State.placeAt
  split
  · exact sameOutside_putEntry _ _ _
  · exact sameOutside_putEntry _ _ _
  · split
    · dsimp only
      split
      · exact sameOutside_beginMissed _ _ _ _
      · exact sameOutside_beginLate _ _ _ _ _
    · exact sameOutside_putEntry _ _ _

theorem leavesJournal_placeRequest : Handler.LeavesJournal placeRequest := by
  intro body s
  unfold placeRequest
  split
  · exact ⟨rfl, rfl⟩
  · split
    · exact ⟨rfl, rfl⟩
    · split
      · exact ⟨rfl, rfl⟩
      · split
        · exact ⟨rfl, rfl⟩
        · split
          · exact ⟨rfl, rfl⟩
          · have placed := sameOutside_placeAt s
            exact ⟨(placed _ _).channels, (placed _ _).reports⟩

theorem leavesJournal_cancelRequest : Handler.LeavesJournal cancelRequest := by
  intro body s
  unfold cancelRequest
  split
  · exact ⟨rfl, rfl⟩
  · dsimp only
    split
    · exact ⟨rfl, rfl⟩
    · have cancelled := sameOutside_foldl fun u i => sameOutside_cancelEntry (s := u) (i := i)
      exact ⟨(cancelled _ s).channels, (cancelled _ s).reports⟩

/-- The trailing actions that TIMELINE-CLEAR performs reach lines only (R62). -/
theorem leavesJournal_timelineClearRequest : Handler.LeavesJournal timelineClearRequest := by
  intro body s
  cases body with
  | nil => rw [timelineClearRequest_clears]; exact ⟨rfl, rfl⟩
  | cons b rest => rw [timelineClearRequest_error (List.cons_ne_nil b rest)]; exact ⟨rfl, rfl⟩

theorem leavesJournal_lineSetupRequest : Handler.LeavesJournal lineSetupRequest := by
  intro body s
  unfold lineSetupRequest
  split
  · exact ⟨rfl, rfl⟩
  · split <;> exact ⟨rfl, rfl⟩

theorem leavesJournal_lineWriteRequest : Handler.LeavesJournal lineWriteRequest := by
  intro body s
  unfold lineWriteRequest
  split
  · exact ⟨rfl, rfl⟩
  · split
    · exact ⟨rfl, rfl⟩
    · split <;> exact ⟨rfl, rfl⟩

theorem leavesJournal_haltRequest : Handler.LeavesJournal haltRequest := by
  intro body s
  unfold haltRequest
  split
  · exact ⟨rfl, rfl⟩
  · obtain ⟨-, channels, reports, -⟩ := s.addCause_frame Causes.ofRequest
    exact ⟨channels, reports⟩

theorem leavesJournal_resumeRequest : Handler.LeavesJournal resumeRequest := by
  intro body s
  unfold resumeRequest
  split
  · exact ⟨rfl, rfl⟩
  · split
    · split <;> exact ⟨rfl, rfl⟩
    · exact ⟨rfl, rfl⟩

theorem leavesJournal_stopSetupRequest : Handler.LeavesJournal stopSetupRequest := by
  intro body s
  unfold stopSetupRequest
  split
  · exact ⟨rfl, rfl⟩
  · next enable active _ =>
    dsimp only [accept]
    split
    · obtain ⟨-, channels, reports, -⟩ :=
        (s.setHalt { s.halt with stopEnable := enable, stopActive := active }).addCause_frame Causes.ofStopLine
      exact ⟨channels, reports⟩
    · exact ⟨rfl, rfl⟩

/-! ### Requests to the journal, the channels and the Report Queue -/

/-- An acknowledged report frees its records (R122). -/
theorem keepsJournal_ackRequest : Handler.KeepsJournal ackRequest := by
  intro body s h
  have acknowledged : ∀ m, JournalFits (s.setReports (s.reports.acknowledge m)) := by
    refine fun m => h.setReports fun c => ?_
    unfold ReportQueue.acknowledge
    split
    · exact length_batchRecords_drop_le _ _ c
    · rw [batchRecords_congr (map_content_markSent _)]
      exact length_batchRecords_drop_le _ _ c
  unfold ackRequest
  split
  · exact h
  · split
    · exact acknowledged _
    · split <;> exact h

theorem keepsJournal_reportsOnRequest : Handler.KeepsJournal reportsOnRequest := by
  intro body s h
  unfold reportsOnRequest
  split
  · exact h
  · split
    · exact h
    · exact h.sameContents (map_content_markSent _)

theorem keepsJournal_linkSetupRequest : Handler.KeepsJournal linkSetupRequest := by
  intro body s h
  unfold linkSetupRequest
  split
  · exact h
  · exact h.sameContents rfl

theorem keepsJournal_linkResetRequest : Handler.KeepsJournal linkResetRequest := by
  intro body s h
  unfold linkResetRequest
  split
  · exact h
  · exact h.emptied.setLink _

theorem keepsJournal_timeSetRequest : Handler.KeepsJournal timeSetRequest := by
  intro body s h
  unfold timeSetRequest
  split
  · exact h
  · split
    · exact h
    · exact (h.setTimebase _).restartReferences

theorem keepsJournal_timeRunRequest : Handler.KeepsJournal timeRunRequest := by
  intro body s h
  unfold timeRunRequest
  split
  · exact h
  · split
    · exact h
    · exact (h.setTimebase _).restartReferences

/-- A quota below what the channel holds is refused (R103). -/
theorem keepsJournal_channelSetupRequest : Handler.KeepsJournal channelSetupRequest := by
  intro body s h
  unfold channelSetupRequest
  split
  · exact h
  · next c new _ =>
    split
    · exact h
    · next free =>
      rw [State.setupHeld_iff, not_or] at free
      obtain ⟨quota, -⟩ := free
      exact h.newQuota c rfl (not_lt.mp quota)

theorem keepsJournal_channelQueryRequest : Handler.KeepsJournal channelQueryRequest := by
  intro body s h
  unfold channelQueryRequest
  split
  · exact h
  · dsimp only [accept]
    split
    · exact h.sameRecords _ rfl rfl
    · exact h

theorem Channel.flush_unreported (ch : Channel) : ch.flush.unreported = ch.unreported := by
  unfold Channel.flush
  split <;> rfl

theorem keepsJournal_flushRequest : Handler.KeepsJournal flushRequest := by
  intro body s h
  unfold flushRequest
  split
  · exact h
  · refine JournalFits.foldl (fun c hu => hu.sameRecords c ?_ ?_) _ h
    · exact Channel.flush_unreported _
    · rw [Channel.flush_setup]

theorem keepsJournal_handlerFor (k : RequestKind) : (handlerFor k).KeepsJournal := by
  cases k with
  | hello => exact (Handler.leavesJournal_of_reads helloRequest_reads).keeps
  | status => exact leavesJournal_statusRequest.keeps
  | restart => exact leavesJournal_restartRequest.keeps
  | ack => exact keepsJournal_ackRequest
  | reportsOn => exact keepsJournal_reportsOnRequest
  | linkSetup => exact keepsJournal_linkSetupRequest
  | linkReset => exact keepsJournal_linkResetRequest
  | timeSetup => exact leavesJournal_timeSetupRequest.keeps
  | timeSet => exact keepsJournal_timeSetRequest
  | timeRun => exact keepsJournal_timeRunRequest
  | timeStop => exact leavesJournal_timeStopRequest.keeps
  | timeRead => exact (Handler.leavesJournal_of_reads timeReadRequest_reads).keeps
  | place => exact leavesJournal_placeRequest.keeps
  | entryQuery => exact (Handler.leavesJournal_of_reads entryQueryRequest_reads).keeps
  | entryList => exact (Handler.leavesJournal_of_reads entryListRequest_reads).keeps
  | cancel => exact leavesJournal_cancelRequest.keeps
  | timelineClear => exact leavesJournal_timelineClearRequest.keeps
  | lineSetup => exact leavesJournal_lineSetupRequest.keeps
  | lineWrite => exact leavesJournal_lineWriteRequest.keeps
  | linesRead => exact (Handler.leavesJournal_of_reads linesReadRequest_reads).keeps
  | halt => exact leavesJournal_haltRequest.keeps
  | resume => exact leavesJournal_resumeRequest.keeps
  | stopSetup => exact leavesJournal_stopSetupRequest.keeps
  | channelSetup => exact keepsJournal_channelSetupRequest
  | channelQuery => exact keepsJournal_channelQueryRequest
  | flush => exact keepsJournal_flushRequest

theorem keepsJournal_handlerOf (kind : Byte) : (handlerOf kind).KeepsJournal := by
  unfold handlerOf
  split
  · exact keepsJournal_handlerFor _
  · exact (Handler.leavesJournal_of_reads fun _ _ => rfl).keeps

section Requests

variable {s : State} (h : JournalFits s) {f : Handler} (hf : f.KeepsJournal)
include h hf

theorem JournalFits.takeHead (g : Frame) : JournalFits (s.takeHead f g) := by
  have taken : JournalFits s.dequeued := h.setLink _
  refine JournalFits.transmitChoice ?_
  unfold State.executeFrame
  split
  · exact taken.setLink _
  · exact JournalFits.setLink (hf g.body _ taken) _

theorem JournalFits.requestStep (g : Frame) : JournalFits (requestStep f g s) := by
  have served : ∀ {u : State}, JournalFits u → JournalFits (if u.headIs g then u.takeHead f g else u) := by
    intro u hu
    split
    · exact hu.takeHead hf g
    · exact hu
  unfold Machine.requestStep
  split
  · exact h
  · split
    · exact h.setLink _
    · refine served ?_
      split
      · exact h
      · exact h.offerFrame g

end Requests

/-! ### The base clock (chapter 1, section 9.3) -/

section Periods

variable {s : State} (h : JournalFits s)
include h

theorem JournalFits.advance : JournalFits s.advance := (h.setTimebase _).outsideTimeline (sameOutside_advance s)

theorem JournalFits.internalTick : JournalFits s.internalTick := by
  unfold State.internalTick
  split
  · exact (h.setTimebase _).advance
  · exact h

theorem JournalFits.cntRise : JournalFits s.cntRise := by
  unfold State.cntRise
  split
  · exact h.advance
  · exact h

theorem JournalFits.prescalePeriod : JournalFits s.prescalePeriod := by
  unfold State.prescalePeriod
  split
  · split
    · exact h.internalTick
    · exact h.setTimebase _
  · exact h

theorem JournalFits.cntPeriod : JournalFits s.cntPeriod := by
  unfold State.cntPeriod
  dsimp only
  split
  · exact (h.setTimebase _).cntRise
  · exact h.setTimebase _

theorem JournalFits.stopPeriod : JournalFits s.stopPeriod := by
  unfold State.stopPeriod
  split
  · split
    · exact h
    · exact h.setHalt _
  · split
    · exact h.setHalt _
    · split
      · exact h.acceptStop
      · exact h.setHalt _

theorem JournalFits.inputPeriod (c : ChanIx) : JournalFits (s.inputPeriod c) := by
  unfold State.inputPeriod
  dsimp only
  split
  · split
    · exact h
    · exact h.rawTransition c
  · split
    · exact h.sameRecords c rfl rfl
    · split
      · exact h.acceptEdge c _
      · exact h.sameRecords c rfl rfl

theorem JournalFits.rxPeriod : JournalFits s.rxPeriod := by
  unfold State.rxPeriod
  dsimp only
  split
  · split
    · exact h.setLink _
    · exact h
  · split <;> exact h.setLink _
  · split
    · split <;> exact h.setLink _
    · split
      · exact h.setLink _
      · exact (h.setLink _).receive _ _

theorem JournalFits.stepGap : JournalFits s.stepGap := by
  unfold State.stepGap
  split <;> exact h.setLink _

theorem JournalFits.stepReportTimer : JournalFits s.stepReportTimer := by
  unfold State.stepReportTimer
  split
  · exact h.reportTimerExpires
  · exact h.sameContents rfl

theorem JournalFits.stepLinger (c : ChanIx) : JournalFits (s.stepLinger c) := by
  unfold State.stepLinger
  split <;> exact h.sameRecords c rfl rfl

theorem JournalFits.msPeriod : JournalFits s.msPeriod := by
  unfold State.msPeriod
  split
  · exact JournalFits.foldl (fun c hu => hu.stepLinger c) _ (h.setTimebase _).stepGap.stepReportTimer
  · exact h.setTimebase _

theorem JournalFits.txPeriod : JournalFits s.txPeriod := by
  unfold State.txPeriod
  split
  · exact h.transmitChoice
  · split
    · exact h.frameEnds
    · exact h.setLink _

theorem JournalFits.serveRequest : JournalFits s.serveRequest := by
  unfold State.serveRequest
  split
  · split
    · exact h.takeHead (keepsJournal_handlerOf _) _
    · exact h
  · exact h

theorem JournalFits.basePeriod : JournalFits s.basePeriod := by
  unfold State.basePeriod
  split
  · unfold State.holdPeriod
    split
    · exact journalFits_endReset _ _
    · exact h.congr rfl rfl
  · have sampled := JournalFits.foldl (fun c hu => hu.inputPeriod c) (List.finRange 16)
      h.prescalePeriod.cntPeriod.stopPeriod
    exact sampled.rxPeriod.msPeriod.txPeriod.serveRequest.admitOne

end Periods

/-! ### Every command and every step -/

section Commands

variable {s t : State} (h : JournalFits s)
include h

theorem JournalFits.exec_command (k : RequestKind) (seq : Byte) (body : List Byte)
    (he : exec (k.command seq body) s = .next t) : JournalFits t := by
  rw [Machine.exec_command] at he
  cases he
  exact h.requestStep (keepsJournal_handlerFor k) _

theorem JournalFits.exec {c : Instr} (he : exec c s = .next t) : JournalFits t := by
  cases c with
  | hello seq body => exact h.exec_command .hello seq body he
  | status seq body => exact h.exec_command .status seq body he
  | restart seq body => exact h.exec_command .restart seq body he
  | unknown kind seq body => cases he; exact h.requestStep (keepsJournal_handlerOf kind) _
  | answerCacheResend kind seq body => cases he; exact h.requestStep (keepsJournal_handlerOf kind) _
  | ack seq body => exact h.exec_command .ack seq body he
  | reportsOn seq body => exact h.exec_command .reportsOn seq body he
  | linkSetup seq body => exact h.exec_command .linkSetup seq body he
  | linkReset seq body => exact h.exec_command .linkReset seq body he
  | timeSetup seq body => exact h.exec_command .timeSetup seq body he
  | timeSet seq body => exact h.exec_command .timeSet seq body he
  | timeRun seq body => exact h.exec_command .timeRun seq body he
  | timeStop seq body => exact h.exec_command .timeStop seq body he
  | timeRead seq body => exact h.exec_command .timeRead seq body he
  | place seq body => exact h.exec_command .place seq body he
  | entryQuery seq body => exact h.exec_command .entryQuery seq body he
  | entryList seq body => exact h.exec_command .entryList seq body he
  | cancel seq body => exact h.exec_command .cancel seq body he
  | timelineClear seq body => exact h.exec_command .timelineClear seq body he
  | lineSetup seq body => exact h.exec_command .lineSetup seq body he
  | lineWrite seq body => exact h.exec_command .lineWrite seq body he
  | linesRead seq body => exact h.exec_command .linesRead seq body he
  | halt seq body => exact h.exec_command .halt seq body he
  | resume seq body => exact h.exec_command .resume seq body he
  | stopSetup seq body => exact h.exec_command .stopSetup seq body he
  | channelSetup seq body => exact h.exec_command .channelSetup seq body he
  | channelQuery seq body => exact h.exec_command .channelQuery seq body he
  | flush seq body => exact h.exec_command .flush seq body he
  | internalTick => cases he; exact h.internalTick
  | cntRisingEdge =>
    cases he
    split
    · exact h
    · exact (h.setTimebase _).cntRise
  | rawTransition c =>
    cases he
    split
    · exact h
    · exact h.rawTransition c
  | glitch c =>
    cases he
    split
    · exact h.sameRecords c rfl rfl
    · split
      · exact h
      · exact h.sameRecords c rfl rfl
  | edgeAccepted c =>
    cases he
    split
    · exact JournalFits.acceptEdge (h.sameRecords c (by rfl) (by rfl)) c _
    · exact h
  | stopWindowOpen =>
    cases he
    split
    · exact h
    · exact h.setHalt _
  | stopGlitch =>
    cases he
    split
    · exact h.setHalt _
    · exact h
  | stopLevelAccepted =>
    cases he
    split
    · exact (h.setHalt _).acceptStop
    · exact h
  | lingerExpiry c =>
    cases he
    split
    · exact h.sameRecords c rfl rfl
    · exact h
  | reportTimerExpiry =>
    cases he
    split
    · exact h.reportTimerExpires.transmitChoice
    · exact h
  | admission => cases he; exact h.admitOne
  | rxCharacter value stopBit =>
    cases he
    split
    · exact h
    · exact h.receive value stopBit
  | gapAbort =>
    cases he
    split
    · exact h
    · exact h.setLink _
  | txFrameEnd => cases he; exact h.frameEnds
  | powerOn => cases he; exact journalFits_beginReset _ _
  | resetPin =>
    cases he
    split
    · split
      · exact h
      · exact journalFits_beginReset _ _
    · exact journalFits_beginReset _ _
  | resetEnd rate1 rate0 stop inputs =>
    cases he
    split
    · exact journalFits_endReset _ _
    · exact h

end Commands

/-- Settles O7: a record is taken only with room, a quota is set only above what the channel holds, and every other change
leaves no channel holding more. -/
theorem journalKept : Obligations.JournalKept := by
  intro s t hs he
  have h := (journalOk_iff s).mp hs
  refine (journalOk_iff t).mpr ?_
  unfold step at he
  split at he
  · next c rest _ =>
    have ready : JournalFits (s.setPending rest) := h.congr rfl rfl
    exact ready.exec he
  · cases he
    exact h.basePeriod

end Sys2Proof.Machine
end

section
/-! PROOF. FLUSH and the linger timers (sections 7.4 and 7.5): the channels that FLUSH names, and what it makes of each. -/

namespace Sys2Proof.Machine

/-! ### The selector (R117) -/

/-- The selector names the channel: its own number, or 0xFF for all. -/
def flushNames (b : Byte) (c : ChanIx) : Bool := decide (b = 0xFF) || decide (c.val = b.toNat)

theorem readFlush_value {b : Byte} (h : 15 < b.toNat) (hall : b ≠ 0xFF) : readFlush [b] = .error .value := by
  simp only [readFlush, below_of_le h, if_neg hall]

theorem filter_finRange_val {n : Nat} (c : Fin n) : (List.finRange n).filter (fun d => decide (d.val = c.val)) = [c] := by
  have once : (List.finRange n).count c = 1 := List.count_eq_one_of_mem (List.nodup_finRange n) (List.mem_finRange c)
  simp only [← Fin.ext_iff]
  rw [List.filter_eq, once, List.replicate_one]

/-- A selector in range names its channels in index order. -/
theorem readFlush_ok {b : Byte} (h : b.toNat ≤ 15 ∨ b = 0xFF) :
    readFlush [b] = .ok ((List.finRange 16).filter (flushNames b)) := by
  rcases h with h | rfl
  · obtain ⟨c, hc⟩ : ∃ c : ChanIx, c.val = b.toNat := ⟨⟨b.toNat, by omega⟩, rfl⟩
    have one : b ≠ 0xFF := by
      rintro rfl
      exact absurd h (by decide)
    have names : flushNames b = fun d => decide (d.val = c.val) := by
      funext d
      rw [flushNames, decide_eq_false one, Bool.false_or, hc]
    simp only [readFlush, below_of_eq hc, names, filter_finRange_val]
  · rfl

/-! ### The channels flushed (R117) -/

theorem Channel.flush_eq (ch : Channel) :
    ch.flush =
      if decide (ch.unreported ≠ []) || decide (0 < ch.lost) then { ch with flushFlag := true } else ch := by
  unfold Channel.flush Channel.flushable
  cases ch.unreported <;> rfl

/-- A second FLUSH finds the flag set. -/
theorem Channel.flush_flush (ch : Channel) : ch.flush.flush = ch.flush := by
  simp only [Channel.flush_eq]
  split <;> simp

theorem State.channel_flushAll (s : State) (named : List ChanIx) (c : ChanIx) :
    (s.flushAll named).channel c = if c ∈ named then (s.channel c).flush else s.channel c := by
  unfold State.flushAll
  induction named generalizing s with
  | nil => rfl
  | cons d named ih =>
    rw [List.foldl_cons, ih, State.channel_setChannel]
    by_cases hdc : d = c
    · subst hdc
      simp [Channel.flush_flush]
    · simp [hdc, Ne.symm hdc]

theorem State.flushAll_onlyChannels (s : State) (named : List ChanIx) :
    s.flushAll named = { s with channels := (s.flushAll named).channels } := by
  unfold State.flushAll
  induction named generalizing s with
  | nil => rfl
  | cons d named ih => exact ih _

theorem State.flushAll_eq (s : State) (p : ChanIx → Bool) :
    s.flushAll ((List.finRange 16).filter p) =
      { s with channels := Vector.ofFn fun c : ChanIx => if p c then (s.channel c).flush else s.channel c } := by
  have channels : (s.flushAll ((List.finRange 16).filter p)).channels =
      Vector.ofFn fun c : ChanIx => if p c then (s.channel c).flush else s.channel c := by
    refine Vector.ext fun c hc => ?_
    rw [Vector.getElem_ofFn]
    exact (s.channel_flushAll _ ⟨c, hc⟩).trans (by simp)
  rw [State.flushAll_onlyChannels, channels]

/-! ### The handler -/

section Handler

variable {s : State} {body : List Byte}

theorem flushRequest_error {st : Status} (hr : readFlush body = .error st) : flushRequest body s = refuse st s := by
  simp only [flushRequest, hr]

/-- The answer counts the named channels that are flagged, and what their next batches carry (R118). -/
theorem flushRequest_ok {p : ChanIx → Bool} (hr : readFlush body = .ok ((List.finRange 16).filter p))
    {after : ChanIx → Channel} (ha : ∀ c, after c = if p c then (s.channel c).flush else s.channel c)
    {flagged : List ChanIx} (hf : flagged = (List.finRange 16).filter fun c => p c && (after c).flushFlag) :
    flushRequest body s =
      accept (.flush flagged.length (flagged.map fun c => min (s.channel c).unreported.length 48).sum)
        { s with channels := Vector.ofFn after } := by
  have state : s.flushAll ((List.finRange 16).filter p) = { s with channels := Vector.ofFn after } := by
    rw [State.flushAll_eq, funext ha]
  have counted : ((List.finRange 16).filter p).filter
      (fun c => (({ s with channels := Vector.ofFn after } : State).channel c).flushFlag) = flagged := by
    rw [List.filter_filter, hf]
    refine List.filter_congr fun c _ => ?_
    simp [State.channel, Bool.and_comm]
  simp only [flushRequest, hr, state, counted]
  rfl

end Handler

/-! ### The linger timer (R116) -/

theorem exec_lingerExpiry {s : State} {c : ChanIx} (h : (s.channel c).lingerTimer ≠ none) :
    exec (.lingerExpiry c) s = .next (s.lingerExpires c) := by
  simp [exec, execLingerExpiry, Option.isSome_iff_ne_none.mpr h]

/-- Settles O57: the selector refused; the selector read, with the channels it names; the timer that runs. -/
theorem flushAndLinger : Obligations.FlushAndLinger := by
  refine ⟨fun s seq b hx => ⟨fun hb hall => ?_, fun hb => ?_⟩, fun s c h => exec_lingerExpiry h⟩
  · exact exec_refused (k := .flush) hx (by simp) (flushRequest_error (readFlush_value hb hall))
  · intro named after flagged
    have flushed : ∀ c, after c = if named c then (s.channel c).flush else s.channel c := by
      intro c
      rw [Channel.flush_eq]
      cases hn : named c <;> simp [after, hn]
    exact exec_accepted (k := .flush) hx (by simp)
      (flushRequest_ok (s := s.dequeued) (readFlush_ok hb) flushed (flagged := flagged) rfl) rfl rfl

end Sys2Proof.Machine
end

section
/-! PROOF. The Report Queue's condition (sections 8.1 and 8.3): consecutive numbers, and the sent reports a run at the head
inside the window. One rule for each change that an operation makes of the queue. -/

namespace Sys2Proof.Machine

/-! ### The condition, report by report -/

/-- `ReportsOk` with its parts named: the room (R128), each report at its place (R129, R135), the sent ones a run at the
head (R135). -/
structure ReportQueue.Fits (q : ReportQueue) : Prop where
  room : q.reports.length ≤ 32
  place : ∀ k r, q.reports[k]? = some r → ReportAtOk q k r
  run : q.reports.Pairwise fun older newer => newer.sent = true → older.sent = true

theorem reportsOk_iff (q : ReportQueue) : ReportsOk q ↔ q.Fits := by
  constructor
  · rintro ⟨room, place, run⟩
    refine ⟨room, fun k r hr => ?_, List.pairwise_iff_getElem.mpr fun j k hj hk hjk => ?_⟩
    · obtain ⟨hk, rfl⟩ := List.getElem?_eq_some_iff.mp hr
      exact place ⟨k, hk⟩
    · exact run ⟨k, hk⟩ ⟨j, hj⟩ hjk.le
  · rintro ⟨room, place, run⟩
    refine ⟨room, fun k => place _ _ (List.getElem?_eq_getElem k.isLt), fun k j hjk hs => ?_⟩
    rcases hjk.lt_or_eq with h | h
    · exact List.pairwise_iff_getElem.mp run _ _ j.isLt k.isLt h hs
    · obtain rfl := Fin.ext h
      exact hs

/-- A report's marks stand on a sent one only. -/
def Report.MarksFit (r : Report) : Prop := (r.resend = true → r.sent = true) ∧ (r.onLine = true → r.sent = true)

/-! ### One rule for each change of the queue -/

theorem ReportQueue.fits_empty {q : ReportQueue} (hr : q.reports = []) : q.Fits := by
  refine ⟨?_, ?_, ?_⟩ <;> simp [hr]

namespace ReportQueue.Fits

variable {q q' : ReportQueue} (h : q.Fits)
include h

/-- The marks of the reports change, and neither a number nor what is sent does. -/
theorem remarked {f : Report → Report} (hr : q'.reports = q.reports.map f) (hn : q'.nextSeq = q.nextSeq)
    (hseq : ∀ r, (f r).seq = r.seq) (hsent : ∀ r, (f r).sent = r.sent) (hm : ∀ r, r.MarksFit → (f r).MarksFit) :
    q'.Fits := by
  refine ⟨?_, fun k r hk => ?_, ?_⟩
  · rw [hr, List.length_map]
    exact h.room
  · rw [hr, List.getElem?_map, Option.map_eq_some_iff] at hk
    obtain ⟨r, hk, rfl⟩ := hk
    obtain ⟨number, window, marks⟩ := h.place k r hk
    refine ⟨?_, ?_, hm r marks⟩
    · rw [hseq, hn, hr, List.length_map]
      exact number
    · rw [hsent]
      exact window
  · rw [hr, List.pairwise_map]
    simpa only [hsent] using h.run

/-- The timer, the counts, the setup or the arbiter's memory change. -/
theorem sameReports (hr : q'.reports = q.reports) (hn : q'.nextSeq = q.nextSeq) : q'.Fits :=
  h.remarked (f := id) (by simpa using hr) hn (fun _ => rfl) (fun _ => rfl) fun _ hm => hm

/-- A go-back or a revival marks every sent report (R138, R143, R144). -/
theorem markSent (hr : q'.reports = markSent q.reports) (hn : q'.nextSeq = q.nextSeq) : q'.Fits := by
  refine h.remarked hr hn (fun r => ?_) (fun r => ?_) fun r hm => ?_
  · split <;> rfl
  · split <;> rfl
  · split
    · next hs => exact ⟨fun _ => hs, hm.2⟩
    · exact hm

/-- No report is on the line any more (R137). -/
theorem frameEnded : q.frameEnded.Fits :=
  h.remarked rfl rfl (fun _ => rfl) (fun _ => rfl) fun _ hm => ⟨hm.1, by simp⟩

/-- The oldest reports leave the queue (R141). -/
theorem drop {m : Nat} (hr : q'.reports = q.reports.drop m) (hn : q'.nextSeq = q.nextSeq) : q'.Fits := by
  have length : q'.reports.length = q.reports.length - m := by rw [hr, List.length_drop]
  refine ⟨by have := h.room; omega, fun k r hk => ?_, hr ▸ h.run.drop⟩
  rw [hr, List.getElem?_drop] at hk
  obtain ⟨number, window, marks⟩ := h.place (m + k) r hk
  refine ⟨?_, fun hs => ?_, marks⟩
  · rw [number, hn, length, Nat.sub_sub]
  · have := window hs
    omega

theorem acknowledge (m : Nat) : (q.acknowledge m).Fits := by
  have dropped : ({ q with reports := q.reports.drop m } : ReportQueue).Fits := h.drop rfl rfl
  unfold ReportQueue.acknowledge
  split
  · exact dropped.sameReports rfl rfl
  · exact dropped.markSent rfl rfl

/-- A report joins the tail, unsent, with the next number (R128, R129). -/
theorem push {content : ReportContent} (room : q.reports.length < 32)
    (hr : q'.reports = (q.push content).reports) (hn : q'.nextSeq = q.nextSeq + 1) : q'.Fits := by
  have length : q'.reports.length = q.reports.length + 1 := by simp [hr, ReportQueue.push]
  refine ⟨by omega, fun k r hk => ?_, ?_⟩
  · rw [hr, ReportQueue.push, List.getElem?_append] at hk
    split at hk
    · next inside =>
      obtain ⟨number, rest⟩ := h.place k r hk
      refine ⟨?_, rest⟩
      rw [number, hn, length, Nat.sub_add_comm inside.le]
      bv_omega
    · next outside =>
      obtain ⟨last, rfl⟩ : k - q.reports.length = 0 ∧ ⟨q.nextSeq, content, false, false, false⟩ = r := by
        simpa [List.getElem?_singleton] using hk
      obtain rfl : k = q.reports.length := by omega
      refine ⟨?_, by simp⟩
      rw [hn, length, Nat.add_sub_cancel_left]
      bv_omega
  · rw [hr, ReportQueue.push, List.pairwise_append]
    exact ⟨h.run, List.pairwise_singleton _ _, by simp⟩

/-- The transmitter takes a report inside the window behind sent ones alone (R136). -/
theorem take {k : Nat} (hk : k < 8) (older : ∀ r ∈ q.reports.take k, r.sent = true) : (q.take k).Fits := by
  have reports : (q.take k).reports = q.reports.modify k Report.taken := rfl
  have length : (q.take k).reports.length = q.reports.length := List.length_modify ..
  refine ⟨length ▸ h.room, fun j r hj => ?_, ?_⟩
  · rw [reports, List.getElem?_modify] at hj
    obtain ⟨r, hr, rfl⟩ := Option.map_eq_some_iff.mp hj
    obtain ⟨number, window, marks⟩ := h.place j r hr
    split
    · next hkj => exact ⟨length ▸ number, fun _ => hkj ▸ hk, by simp [Report.taken]⟩
    · exact ⟨length ▸ number, window, marks⟩
  · rw [List.pairwise_iff_getElem]
    intro i j hi hj hij
    have run := List.pairwise_iff_getElem.mp h.run i j (length ▸ hi) (length ▸ hj) hij
    simp only [reports, List.getElem_modify]
    split
    · next hkj =>
      have ahead : q.reports[i].sent = true := older _ (List.mem_take_iff_getElem.mpr ⟨i, by omega, rfl⟩)
      simp [show k ≠ i by omega, ahead]
    · split
      · exact fun _ => rfl
      · exact run

/-! ### The report that the queue offers (R135, R136) -/

/-- A report is offered only inside the window, behind sent ones alone. -/
theorem offered_in_window {k : Nat} (ho : q.offered = some k) : k < 8 ∧ ∀ r ∈ q.reports.take k, r.sent = true := by
  unfold ReportQueue.offered at ho
  split at ho
  · cases ho
  · split at ho
    · next hm =>
      rw [ho] at hm
      obtain ⟨hk, marked, -⟩ := List.findIdx?_eq_some_iff_getElem.mp hm
      have sent : q.reports[k].sent = true := (Bool.and_eq_true_iff.mp marked).1
      refine ⟨(h.place _ _ (List.getElem?_eq_getElem hk)).2.1 sent, fun r hr => ?_⟩
      obtain ⟨j, hj, rfl⟩ := List.mem_take_iff_getElem.mp hr
      exact List.pairwise_iff_getElem.mp h.run j _ (by omega) hk (by omega) sent
    · split at ho
      · next hu =>
        split at ho
        · next inside =>
          obtain rfl := Option.some_injective _ ho
          refine ⟨inside, fun r hr => ?_⟩
          obtain ⟨j, hj, rfl⟩ := List.mem_take_iff_getElem.mp hr
          obtain ⟨hk, -, older⟩ := List.findIdx?_eq_some_iff_getElem.mp hu
          simpa using older j (by omega)
        · cases ho
      · cases ho

theorem take_offered {k : Nat} (ho : q.offered = some k) : (q.take k).Fits := by
  obtain ⟨inside, older⟩ := h.offered_in_window ho
  exact h.take inside older

end ReportQueue.Fits

end Sys2Proof.Machine
end

section
/-! PROOF. Every command and every period keeps the Report Queue's condition: most operations leave the queue alone, and the
others change it by the rules of that condition. -/

namespace Sys2Proof.Machine

/-! ### What leaves the Report Queue alone -/

section Frame

variable (s : State)

@[simp] theorem State.addCause_reports (c : Causes) : (s.addCause c).reports = s.reports := (s.addCause_frame c).2.2.1

@[simp] theorem State.advance_reports : s.advance.reports = s.reports := (sameOutside_advance s).reports

@[simp] theorem State.acceptEdge_reports (c : ChanIx) (stamp : Tick) : (s.acceptEdge c stamp).reports = s.reports :=
  (besideChannel_acceptEdge s c stamp).reports

@[simp] theorem State.rawTransition_reports (c : ChanIx) : (s.rawTransition c).reports = s.reports :=
  (besideChannel_rawTransition s c).reports

@[simp] theorem State.lingerExpires_reports (c : ChanIx) : (s.lingerExpires c).reports = s.reports := rfl

@[simp] theorem State.acceptStop_reports : s.acceptStop.reports = s.reports := by
  unfold State.acceptStop
  dsimp only
  split
  · split <;> simp
  · rfl

@[simp] theorem State.internalTick_reports : s.internalTick.reports = s.reports := by
  unfold State.internalTick
  split <;> simp

@[simp] theorem State.cntRise_reports : s.cntRise.reports = s.reports := by
  unfold State.cntRise
  split <;> simp

@[simp] theorem State.offerFrame_reports (f : Frame) : (s.offerFrame f).reports = s.reports := by
  unfold State.offerFrame
  split <;> rfl

@[simp] theorem State.framingError_reports : s.framingError.reports = s.reports := rfl

@[simp] theorem State.gapAbort_reports : s.gapAbort.reports = s.reports := rfl

@[simp] theorem State.receive_reports (value : Byte) (stopBit : Bool) :
    (s.receive value stopBit).reports = s.reports := by
  obtain ⟨l, hl⟩ := s.receive_onlyLink value stopBit
  rw [hl, State.setLink_reports]

/-! ### The shares of a period that leave the queue alone -/

@[simp] theorem State.prescalePeriod_reports : s.prescalePeriod.reports = s.reports := by
  unfold State.prescalePeriod
  split
  · split <;> simp
  · rfl

@[simp] theorem State.cntPeriod_reports : s.cntPeriod.reports = s.reports := by
  unfold State.cntPeriod
  dsimp only
  split <;> simp

@[simp] theorem State.stopPeriod_reports : s.stopPeriod.reports = s.reports := by
  unfold State.stopPeriod
  split
  · split <;> rfl
  · split
    · rfl
    · split <;> simp

@[simp] theorem State.inputPeriod_reports (c : ChanIx) : (s.inputPeriod c).reports = s.reports := by
  unfold State.inputPeriod
  dsimp only
  split
  · split <;> simp
  · split
    · rfl
    · split <;> simp

/-- What every turn of a loop leaves alone, the loop leaves alone. -/
theorem State.foldl_reports {α : Type} {f : State → α → State} (hf : ∀ u a, (f u a).reports = u.reports) (l : List α) :
    (l.foldl f s).reports = s.reports := by
  induction l generalizing s with
  | nil => rfl
  | cons a l ih => exact (ih _).trans (hf s a)

@[simp] theorem State.inputsPeriod_reports : s.inputsPeriod.reports = s.reports :=
  State.foldl_reports s (fun u c => u.inputPeriod_reports c) _

@[simp] theorem State.rxPeriod_reports : s.rxPeriod.reports = s.reports := by
  unfold State.rxPeriod
  dsimp only
  split
  · split <;> rfl
  · split <;> rfl
  · split
    · split <;> rfl
    · split <;> simp

@[simp] theorem State.stepGap_reports : s.stepGap.reports = s.reports := by
  unfold State.stepGap
  split <;> rfl

@[simp] theorem State.stepLinger_reports (c : ChanIx) : (s.stepLinger c).reports = s.reports := by
  unfold State.stepLinger
  split <;> rfl

end Frame

/-! ### The transmitter, the report timer, admission and the device reset -/

section Operations

variable {s t : State} (h : s.reports.Fits)
include h

theorem ReportQueue.Fits.congr (hr : t.reports = s.reports) : t.reports.Fits := hr ▸ h

theorem ReportQueue.Fits.transmitChoice : s.transmitChoice.reports.Fits := by
  rcases s.transmitChoice_cases with e | ⟨a, -, -, -, e⟩ | ⟨k, r, -, -, -, offered, -, e⟩ <;> rw [e]
  · exact h
  · exact h
  · exact h.take_offered offered

/-- A go-back, or SILENT (R138, R139). -/
theorem ReportQueue.Fits.reportTimerExpires : s.reportTimerExpires.reports.Fits := by
  unfold State.reportTimerExpires
  dsimp only
  split
  · exact h.markSent rfl rfl
  · split
    · rw [State.addCause_reports]
      exact h.sameReports rfl rfl
    · exact h.sameReports rfl rfl

/-- The item that is admitted joins the tail, when its slot still holds it. -/
theorem ReportQueue.Fits.admitItem (room : s.reports.reports.length < 32) (item : Ready) :
    (s.admitItem item).reports.Fits := by
  cases item with
  | halt =>
    change s.admitHalt.reports.Fits
    unfold State.admitHalt
    split
    · exact h.push room rfl rfl
    · exact h
  | entry i =>
    change (s.admitEntry i).reports.Fits
    unfold State.admitEntry
    split
    · split
      · exact h.push room rfl rfl
      · exact h
    · exact h
  | level c =>
    change (s.admitLevel c).reports.Fits
    unfold State.admitLevel
    split
    · exact h.push room rfl rfl
    · exact h
  | batch c => exact h.push room rfl rfl

theorem ReportQueue.Fits.admitOne : s.admitOne.reports.Fits := by
  unfold State.admitOne
  split
  · next free =>
    have room : s.reports.reports.length < 32 := of_decide_eq_true (Bool.and_eq_true_iff.mp free).2
    split
    · exact (h.admitItem room _).transmitChoice
    · exact h
  · exact h

end Operations

theorem State.beginReset_fits (s : State) (cause : ResetCause) : (s.beginReset cause).reports.Fits :=
  ReportQueue.fits_empty rfl

/-- START joins the empty queue as number 0 (R134, R178). -/
theorem State.endReset_fits (s : State) (cause : ResetCause) : (s.endReset cause).reports.Fits := by
  have started : (s.afterReset cause).reports.Fits :=
    (ReportQueue.fits_empty (q := ReportQueue.afterReset) rfl).push (by decide) rfl rfl
  unfold State.endReset
  refine ReportQueue.Fits.transmitChoice ?_
  split
  · exact started.congr (State.addCause_reports _ _)
  · exact started

theorem ReportQueue.Fits.frameEnds {s : State} (h : s.reports.Fits) : s.frameEnds.reports.Fits := by
  unfold State.frameEnds
  split
  · exact h.transmitChoice
  · split
    · exact s.beginReset_fits _
    · refine ReportQueue.Fits.transmitChoice ?_
      split
      · exact h
      · exact h.frameEnded

/-! ### Requests -/

/-- A handler keeps the condition. -/
def Handler.KeepsReports (f : Handler) : Prop :=
  ∀ (body : List Byte) (s : State), s.reports.Fits → (f body s).2.reports.Fits

/-- A handler leaves the Report Queue alone. -/
def Handler.LeavesReports (f : Handler) : Prop := ∀ (body : List Byte) (s : State), (f body s).2.reports = s.reports

theorem Handler.LeavesReports.keeps {f : Handler} (hf : f.LeavesReports) : f.KeepsReports :=
  fun body s h => h.congr (hf body s)

theorem Handler.LeavesJournal.leavesReports {f : Handler} (hf : f.LeavesJournal) : f.LeavesReports :=
  fun body s => (hf body s).2

theorem leavesReports_timeSetRequest : Handler.LeavesReports timeSetRequest := by
  intro body s
  unfold timeSetRequest
  split
  · rfl
  · split <;> rfl

theorem leavesReports_timeRunRequest : Handler.LeavesReports timeRunRequest := by
  intro body s
  unfold timeRunRequest
  split
  · rfl
  · split <;> rfl

theorem leavesReports_channelSetupRequest : Handler.LeavesReports channelSetupRequest := by
  intro body s
  unfold channelSetupRequest
  split
  · rfl
  · split <;> rfl

theorem leavesReports_channelQueryRequest : Handler.LeavesReports channelQueryRequest := by
  intro body s
  unfold channelQueryRequest
  split
  · rfl
  · dsimp only [accept]
    split <;> rfl

theorem State.flushAll_reports (s : State) (named : List ChanIx) : (s.flushAll named).reports = s.reports := by
  rw [State.flushAll_onlyChannels]

theorem leavesReports_flushRequest : Handler.LeavesReports flushRequest := by
  intro body s
  unfold flushRequest
  split
  · rfl
  · exact s.flushAll_reports _

theorem keepsReports_ackRequest : Handler.KeepsReports ackRequest := by
  intro body s h
  unfold ackRequest
  split
  · exact h
  · split
    · exact h.acknowledge _
    · split <;> exact h

theorem keepsReports_reportsOnRequest : Handler.KeepsReports reportsOnRequest := by
  intro body s h
  unfold reportsOnRequest
  split
  · exact h
  · split
    · exact h
    · exact h.markSent rfl rfl

theorem keepsReports_linkSetupRequest : Handler.KeepsReports linkSetupRequest := by
  intro body s h
  unfold linkSetupRequest
  split
  · exact h
  · exact h.sameReports rfl rfl

theorem keepsReports_linkResetRequest : Handler.KeepsReports linkResetRequest := by
  intro body s h
  unfold linkResetRequest
  split
  · exact h
  · exact ReportQueue.fits_empty rfl

/-- Only ACK, REPORTS-ON, LINK-SETUP and LINK-RESET reach the Report Queue. -/
theorem keepsReports_handlerFor (k : RequestKind) : (handlerFor k).KeepsReports := by
  have reads {f : Handler} (hf : ∀ body s, (f body s).2 = s) : f.KeepsReports :=
    (Handler.leavesJournal_of_reads hf).leavesReports.keeps
  cases k with
  | hello => exact reads helloRequest_reads
  | status => exact leavesJournal_statusRequest.leavesReports.keeps
  | restart => exact leavesJournal_restartRequest.leavesReports.keeps
  | ack => exact keepsReports_ackRequest
  | reportsOn => exact keepsReports_reportsOnRequest
  | linkSetup => exact keepsReports_linkSetupRequest
  | linkReset => exact keepsReports_linkResetRequest
  | timeSetup => exact leavesJournal_timeSetupRequest.leavesReports.keeps
  | timeSet => exact leavesReports_timeSetRequest.keeps
  | timeRun => exact leavesReports_timeRunRequest.keeps
  | timeStop => exact leavesJournal_timeStopRequest.leavesReports.keeps
  | timeRead => exact reads timeReadRequest_reads
  | place => exact leavesJournal_placeRequest.leavesReports.keeps
  | entryQuery => exact reads entryQueryRequest_reads
  | entryList => exact reads entryListRequest_reads
  | cancel => exact leavesJournal_cancelRequest.leavesReports.keeps
  | timelineClear => exact leavesJournal_timelineClearRequest.leavesReports.keeps
  | lineSetup => exact leavesJournal_lineSetupRequest.leavesReports.keeps
  | lineWrite => exact leavesJournal_lineWriteRequest.leavesReports.keeps
  | linesRead => exact reads linesReadRequest_reads
  | halt => exact leavesJournal_haltRequest.leavesReports.keeps
  | resume => exact leavesJournal_resumeRequest.leavesReports.keeps
  | stopSetup => exact leavesJournal_stopSetupRequest.leavesReports.keeps
  | channelSetup => exact leavesReports_channelSetupRequest.keeps
  | channelQuery => exact leavesReports_channelQueryRequest.keeps
  | flush => exact leavesReports_flushRequest.keeps

theorem keepsReports_handlerOf (kind : Byte) : (handlerOf kind).KeepsReports := by
  unfold handlerOf
  split
  · exact keepsReports_handlerFor _
  · exact fun _ _ h => h

section Requests

variable {s : State} (h : s.reports.Fits) {f : Handler} (hf : f.KeepsReports)
include h hf

theorem ReportQueue.Fits.takeHead (g : Frame) : (s.takeHead f g).reports.Fits := by
  have taken : s.dequeued.reports.Fits := h
  refine ReportQueue.Fits.transmitChoice ?_
  unfold State.executeFrame
  split
  · exact taken
  · exact hf g.body _ taken

theorem ReportQueue.Fits.requestStep (g : Frame) : (requestStep f g s).reports.Fits := by
  have served : ∀ {u : State}, u.reports.Fits → (if u.headIs g then u.takeHead f g else u).reports.Fits := by
    intro u hu
    split
    · exact hu.takeHead hf g
    · exact hu
  unfold Machine.requestStep
  split
  · exact h
  · split
    · exact h
    · refine served ?_
      split
      · exact h
      · exact h.congr (s.offerFrame_reports g)

end Requests

/-! ### The base clock -/

section Periods

variable {s : State} (h : s.reports.Fits)
include h

theorem ReportQueue.Fits.msPeriod : s.msPeriod.reports.Fits := by
  unfold State.msPeriod
  split
  · have gap : (s.setTimebase { s.timebase with msPhase := 0 }).stepGap.reports.Fits := h.congr (by simp)
    refine ReportQueue.Fits.congr ?_ (State.foldl_reports _ (fun u c => u.stepLinger_reports c) _)
    unfold State.stepReportTimer
    split
    · exact gap.reportTimerExpires
    · exact gap.sameReports rfl rfl
  · exact h

theorem ReportQueue.Fits.txPeriod : s.txPeriod.reports.Fits := by
  unfold State.txPeriod
  split
  · exact h.transmitChoice
  · split
    · exact h.frameEnds
    · exact h

theorem ReportQueue.Fits.serveRequest : s.serveRequest.reports.Fits := by
  unfold State.serveRequest
  split
  · split
    · exact h.takeHead (keepsReports_handlerOf _) _
    · exact h
  · exact h

/-- The ticks, the filters and RX leave the queue alone; then come the report timer, the transmitter, a request and an
admission. -/
theorem ReportQueue.Fits.basePeriod : s.basePeriod.reports.Fits := by
  unfold State.basePeriod
  split
  · unfold State.holdPeriod
    split
    · exact s.endReset_fits _
    · exact h
  · have sampled : s.prescalePeriod.cntPeriod.stopPeriod.inputsPeriod.rxPeriod.reports.Fits := h.congr (by simp)
    exact sampled.msPeriod.txPeriod.serveRequest.admitOne

end Periods

/-! ### Every command and every step -/

section Commands

variable {s t : State} (h : s.reports.Fits)
include h

theorem ReportQueue.Fits.exec_command (k : RequestKind) (seq : Byte) (body : List Byte)
    (he : exec (k.command seq body) s = .next t) : t.reports.Fits := by
  rw [Machine.exec_command] at he
  cases he
  exact h.requestStep (keepsReports_handlerFor k) _

theorem ReportQueue.Fits.exec {c : Instr} (he : exec c s = .next t) : t.reports.Fits := by
  cases c with
  | hello seq body => exact h.exec_command .hello seq body he
  | status seq body => exact h.exec_command .status seq body he
  | restart seq body => exact h.exec_command .restart seq body he
  | unknown kind seq body => cases he; exact h.requestStep (keepsReports_handlerOf kind) _
  | answerCacheResend kind seq body => cases he; exact h.requestStep (keepsReports_handlerOf kind) _
  | ack seq body => exact h.exec_command .ack seq body he
  | reportsOn seq body => exact h.exec_command .reportsOn seq body he
  | linkSetup seq body => exact h.exec_command .linkSetup seq body he
  | linkReset seq body => exact h.exec_command .linkReset seq body he
  | timeSetup seq body => exact h.exec_command .timeSetup seq body he
  | timeSet seq body => exact h.exec_command .timeSet seq body he
  | timeRun seq body => exact h.exec_command .timeRun seq body he
  | timeStop seq body => exact h.exec_command .timeStop seq body he
  | timeRead seq body => exact h.exec_command .timeRead seq body he
  | place seq body => exact h.exec_command .place seq body he
  | entryQuery seq body => exact h.exec_command .entryQuery seq body he
  | entryList seq body => exact h.exec_command .entryList seq body he
  | cancel seq body => exact h.exec_command .cancel seq body he
  | timelineClear seq body => exact h.exec_command .timelineClear seq body he
  | lineSetup seq body => exact h.exec_command .lineSetup seq body he
  | lineWrite seq body => exact h.exec_command .lineWrite seq body he
  | linesRead seq body => exact h.exec_command .linesRead seq body he
  | halt seq body => exact h.exec_command .halt seq body he
  | resume seq body => exact h.exec_command .resume seq body he
  | stopSetup seq body => exact h.exec_command .stopSetup seq body he
  | channelSetup seq body => exact h.exec_command .channelSetup seq body he
  | channelQuery seq body => exact h.exec_command .channelQuery seq body he
  | flush seq body => exact h.exec_command .flush seq body he
  | internalTick => cases he; exact h.congr s.internalTick_reports
  | cntRisingEdge | rawTransition | edgeAccepted | rxCharacter | stopWindowOpen | stopLevelAccepted =>
    cases he
    refine h.congr ?_
    split <;> simp [State.openStopWindow]
  | glitch | stopGlitch | lingerExpiry | gapAbort =>
    cases he
    refine h.congr ?_
    repeat' split
    all_goals rfl
  | reportTimerExpiry =>
    cases he
    split
    · exact h.reportTimerExpires.transmitChoice
    · exact h
  | admission => cases he; exact h.admitOne
  | txFrameEnd => cases he; exact h.frameEnds
  | powerOn => cases he; exact s.beginReset_fits _
  | resetPin =>
    cases he
    split
    · split
      · exact h
      · exact s.beginReset_fits _
    · exact s.beginReset_fits _
  | resetEnd rate1 rate0 stop inputs =>
    cases he
    split
    · exact State.endReset_fits _ _
    · exact h

end Commands

/-- Settles O6: what touches the queue changes it by the rules of its condition, in every command and every period. -/
theorem reportsKept : Obligations.ReportsKept := by
  intro s t hs he
  have h := (reportsOk_iff _).mp hs
  refine (reportsOk_iff _).mpr ?_
  unfold step at he
  split at he
  · next c rest _ =>
    have ready : (s.setPending rest).reports.Fits := h
    exact ready.exec he
  · cases he
    exact h.basePeriod

end Sys2Proof.Machine
end

section
/-! PROOF. Acknowledgement (sections 8.5 and 8.6): ACK of a sent report, of a stale number and of any other; REPORTS-ON and
LINK-SETUP. -/

namespace Sys2Proof.Machine

/-! ### The report that a number names (R129, R141) -/

/-- The numbers of the queue are distinct: 32 of them lie within 256. -/
theorem ReportQueue.Fits.seq_inj {q : ReportQueue} (h : q.Fits) {j k : Nat} {r r' : Report}
    (hj : q.reports[j]? = some r) (hk : q.reports[k]? = some r') (he : r.seq = r'.seq) : j = k := by
  obtain ⟨hjl, -⟩ := List.getElem?_eq_some_iff.mp hj
  obtain ⟨hkl, -⟩ := List.getElem?_eq_some_iff.mp hk
  have room := h.room
  rw [(h.place j r hj).1, (h.place k r' hk).1] at he
  bv_omega

/-- The sent report that bears a number is the one that the number names. -/
theorem ReportQueue.Fits.sentAt_eq {q : ReportQueue} (h : q.Fits) {k : Nat} {r : Report}
    (hk : q.reports[k]? = some r) (hs : r.sent = true) : q.sentAt r.seq = some k := by
  obtain ⟨hl, rfl⟩ := List.getElem?_eq_some_iff.mp hk
  refine List.findIdx?_eq_some_iff_getElem.mpr ⟨hl, by simp [hs], fun j hj named => ?_⟩
  have same : q.reports[j].seq = q.reports[k].seq := (by simpa using named : _ ∧ _).1
  exact hj.ne (h.seq_inj (List.getElem?_eq_getElem _) hk same)

theorem ReportQueue.sentAt_eq_none {q : ReportQueue} {n : Byte}
    (hn : ∀ r ∈ q.reports, ¬(r.seq = n ∧ r.sent = true)) : q.sentAt n = none :=
  List.findIdx?_eq_none_iff.mpr fun r hr => by simpa using hn r hr

/-! ### The queue acknowledged (R137, R141, R143) -/

section Acknowledge

variable {q : ReportQueue} (m : Nat)

theorem ReportQueue.timerAfterAck_eq (q : ReportQueue) (rest : List Report) :
    q.timerAfterAck rest =
      if ∃ r ∈ rest.head?, r.sent = true ∧ r.onLine = false then some (q.timeout + 1) else none := by
  cases rest <;> simp [ReportQueue.timerAfterAck, startTimer]

theorem ReportQueue.acknowledge_flowing (hs : q.state = .flowing) :
    q.acknowledge m =
      { q with
        reports := q.reports.drop m, retries := 0
        timer :=
          if ∃ r ∈ (q.reports.drop m).head?, r.sent = true ∧ r.onLine = false then some (q.timeout + 1) else none } := by
  rw [← ReportQueue.timerAfterAck_eq, ReportQueue.acknowledge, hs]

theorem ReportQueue.acknowledge_silent (hs : q.state = .silent) :
    q.acknowledge m =
      { q with reports := markSent (q.reports.drop m), retries := 0, timer := none, state := .flowing } := by
  rw [ReportQueue.acknowledge, hs]

/-- What the acknowledged reports carried is freed, and no more (R122). -/
theorem ReportQueue.batchRecords_acknowledge (c : ChanIx) :
    batchRecords (q.acknowledge m).reports c = batchRecords (q.reports.drop m) c := by
  cases hs : q.state with
  | flowing => rw [ReportQueue.acknowledge_flowing m hs]
  | silent => rw [ReportQueue.acknowledge_silent m hs, batchRecords_congr (map_content_markSent _)]

theorem State.heldCount_acknowledge (s : State) (c : ChanIx) :
    (s.setReports (s.reports.acknowledge m)).heldCount c =
      s.heldCount c - (batchRecords (s.reports.reports.take m) c).length := by
  have parts : (batchRecords s.reports.reports c).length =
      (batchRecords (s.reports.reports.take m) c).length + (batchRecords (s.reports.reports.drop m) c).length := by
    rw [← List.length_append, ← batchRecords_append, List.take_append_drop]
  simp only [State.heldCount, State.channel_setReports, State.setReports_reports,
    ReportQueue.batchRecords_acknowledge, parts]
  omega

end Acknowledge

/-! ### ACK -/

section Ack

variable {s : State} {seq n : Byte} (hx : Executes s (RequestKind.ack.frame seq [n]))
include hx

theorem exec_ack_sent {k : Nat} (hk : s.reports.sentAt n = some k) :
    exec (.ack seq [n]) s =
      .next { s.setReports (s.reports.acknowledge (k + 1)) with
        link := s.link.answered (RequestKind.ack.okAnswer seq (.count (k + 1))) } := by
  have acknowledged : ackRequest [n] s.dequeued =
      accept (.count (k + 1)) (s.dequeued.setReports (s.reports.acknowledge (k + 1))) := by
    simp only [ackRequest, readAck, State.dequeued_reports, hk]
  exact exec_accepted (k := .ack) (t := s.dequeued.setReports _) hx (by simp) acknowledged rfl rfl

theorem exec_ack_stale (hk : s.reports.sentAt n = none) (hb : s.reports.stale n = true) :
    exec (.ack seq [n]) s =
      .next { s with link := s.link.answered (RequestKind.ack.okAnswer seq (.count 0)) } := by
  have stale : ackRequest [n] s.dequeued = accept (.count 0) s.dequeued := by
    simp only [ackRequest, readAck, State.dequeued_reports, hk, hb, if_true]
  exact exec_accepted (k := .ack) (t := s.dequeued) hx (by simp) stale rfl rfl

theorem exec_ack_refused (hk : s.reports.sentAt n = none) (hb : s.reports.stale n = false) :
    exec (.ack seq [n]) s = .next (s.refused .ack seq .value) := by
  have refused : ackRequest [n] s.dequeued = refuse .value s.dequeued := by
    simp [ackRequest, readAck, hk, hb]
  exact exec_refused (k := .ack) hx (by simp) refused

end Ack

/-- Settles O27: the number names the sent report alone; the queue acknowledged in FLOWING and in SILENT; the places held. -/
theorem ackAcknowledges : Obligations.AckAcknowledges := by
  intro s seq n k r hx hq hk hn hs rest l
  subst hn
  have acked := exec_ack_sent hx (((reportsOk_iff _).mp hq).sentAt_eq hk hs)
  refine ⟨fun flowing => ?_, fun silent => ?_, fun t ht c => ?_⟩
  · rw [acked, ReportQueue.acknowledge_flowing _ flowing]
    rfl
  · rw [acked, ReportQueue.acknowledge_silent _ silent]
    rfl
  · cases acked.symm.trans ht
    exact s.heldCount_acknowledge (k + 1) c

/-- The stale numbers, written from the base (R142). -/
theorem ReportQueue.stale_iff (q : ReportQueue) (n : Byte) :
    q.stale n = true ↔
      1 ≤ ((q.reports.head?.map Report.seq).getD q.nextSeq - n).toNat ∧
        ((q.reports.head?.map Report.seq).getD q.nextSeq - n).toNat ≤ 8 := by
  have base : q.base = (q.reports.head?.map Report.seq).getD q.nextSeq := by
    unfold ReportQueue.base
    cases q.reports <;> rfl
  rw [ReportQueue.stale, base, Bool.and_eq_true, decide_eq_true_iff, decide_eq_true_iff]

/-- Settles O28: no sent report bears the number, and the distance from the base gives the case. -/
theorem ackStaleOrRefused : Obligations.AckStaleOrRefused := by
  intro s seq n hx hn base
  have unnamed := ReportQueue.sentAt_eq_none hn
  refine ⟨fun near => ?_, fun far => ?_⟩
  · exact exec_ack_stale hx unnamed ((s.reports.stale_iff n).mpr near)
  · exact exec_ack_refused hx unnamed (Bool.eq_false_iff.mpr fun hb => far ((s.reports.stale_iff n).mp hb))

/-! ### REPORTS-ON (R144) -/

theorem reportsOnRequest_error {body : List Byte} (s : State) (hb : body ≠ []) :
    reportsOnRequest body s = refuse .format s := by
  simp only [reportsOnRequest, readEmpty_ne hb]

theorem reportsOnRequest_silent {s : State} (silent : s.reports.state = .silent) :
    reportsOnRequest [] s =
      accept (.reportsOn .flowing s.reports.reports.length)
        (s.setReports
          { s.reports with reports := markSent s.reports.reports, retries := 0, timer := none, state := .flowing }) := by
  simp only [reportsOnRequest, readEmpty, silent]

theorem reportsOnRequest_flowing {s : State} (flowing : s.reports.state = .flowing) :
    reportsOnRequest [] s = accept (.reportsOn .flowing s.reports.reports.length) s := by
  simp only [reportsOnRequest, readEmpty, flowing]

/-- Settles O29: the body, then the report state, give the case. -/
theorem reportsOnRevives : Obligations.ReportsOnRevives := by
  intro s seq body hl hx l
  refine ⟨fun hb => ?_, ?_, ?_⟩
  · exact exec_refused (k := .reportsOn) hx hl (reportsOnRequest_error _ hb)
  · rintro rfl silent
    exact exec_accepted (k := .reportsOn) hx hl (reportsOnRequest_silent (s := s.dequeued) silent) rfl rfl
  · rintro rfl flowing
    exact exec_accepted (k := .reportsOn) (t := s.dequeued) hx hl (reportsOnRequest_flowing flowing) rfl rfl

/-! ### LINK-SETUP (R145) -/

section LinkSetup

variable {t0 t1 limit hos : Byte}

theorem readLinkSetup_value
    (h : number16 t0 t1 < 5 ∨ 1000 < number16 t0 t1 ∨ 15 < limit.toNat ∨ 1 < hos.toNat) :
    readLinkSetup [t0, t1, limit, hos] = .error .value := by
  simp only [readLinkSetup]
  split
  · next flag hf =>
    have code : ¬1 < hos.toNat := fun h => by cases (levelOf_of_lt h).symm.trans hf
    rw [if_pos (by tauto)]
  · rfl

theorem readLinkSetup_ok (h5 : 5 ≤ number16 t0 t1) (h1000 : number16 t0 t1 ≤ 1000) (hl : limit.toNat ≤ 15)
    (hh : hos.toNat ≤ 1) :
    readLinkSetup [t0, t1, limit, hos] = .ok (number16 t0 t1, limit.toNat, decide (hos = 1)) := by
  have flag : flagOf hos = some (decide (hos = 1)) := levelOf_of_le hh
  simp only [readLinkSetup, flag]
  rw [if_neg (by omega)]

end LinkSetup

theorem linkSetupRequest_error {body : List Byte} {st : Status} {s : State} (hr : readLinkSetup body = .error st) :
    linkSetupRequest body s = refuse st s := by
  simp only [linkSetupRequest, hr]

theorem linkSetupRequest_ok {body : List Byte} {timeout limit : Nat} {hos : Bool} {s : State}
    (hr : readLinkSetup body = .ok (timeout, limit, hos)) :
    linkSetupRequest body s =
      accept (.linkSetup timeout limit hos)
        (s.setReports { s.reports with timeout := timeout, retryLimit := limit, haltOnSilence := hos }) := by
  simp only [linkSetupRequest, hr]

/-- Settles O30: the reader's answer gives the case. -/
theorem linkSetupStores : Obligations.LinkSetupStores := by
  intro s seq t0 t1 limit hos hx timeout
  refine ⟨fun hv => ?_, fun h5 h1000 hl hh => ?_⟩
  · exact exec_refused (k := .linkSetup) hx (by simp) (linkSetupRequest_error (readLinkSetup_value hv))
  · exact exec_accepted (k := .linkSetup) hx (by simp)
      (linkSetupRequest_ok (s := s.dequeued) (readLinkSetup_ok h5 h1000 hl hh)) rfl rfl

end Sys2Proof.Machine
end

section
/-! PROOF. LINK-RESET (sections 7.7 and 8.7) and the report timer (section 8.4). -/

namespace Sys2Proof.Machine

/-! ### What LINK-RESET counts (R123, R146) -/

/-- The number of records a report carries: those of a BATCH. -/
def ReportContent.recordCount (content : ReportContent) : Nat :=
  match content with
  | .batch _ _ recs => recs.length
  | _ => 0

/-- A report's records belong to one channel. -/
theorem ReportContent.sum_recordsOf (content : ReportContent) :
    ∑ c, (content.recordsOf c).length = content.recordCount := by
  cases content with
  | batch ch lost recs => simp [ReportContent.recordsOf, ReportContent.recordCount, apply_ite List.length]
  | _ => simp [ReportContent.recordsOf, ReportContent.recordCount]

/-- The records of all channels, counted report by report. -/
theorem sum_batchRecords (reports : List Report) :
    ((List.finRange 16).map fun c => (batchRecords reports c).length).sum =
      (reports.map fun r => r.content.recordCount).sum := by
  rw [← Fin.sum_univ_def]
  induction reports with
  | nil => simp [batchRecords]
  | cons r reports ih =>
    have oldest : ∀ c, batchRecords (r :: reports) c = r.content.recordsOf c ++ batchRecords reports c := fun _ => rfl
    simp only [oldest, List.length_append, Finset.sum_add_distrib, ih, ReportContent.sum_recordsOf, List.map_cons,
      List.sum_cons]

/-! ### LINK-RESET (R146, R147) -/

/-- The link with its answer cache emptied (R147). -/
def Link.uncached (l : Link) : Link := { l with cache := [] }

/-- Every channel with what the discarded reports carried for it taken back (R123). -/
def State.channelsReturned (s : State) (reports : List Report) : Vector Channel 16 :=
  Vector.ofFn fun c : ChanIx => (s.channel c).takeBack (batchRecords reports c) (batchLost reports c)

theorem linkResetRequest_empties (s : State) :
    linkResetRequest [] s =
      accept
        (.linkReset (s.reports.reports.length - (s.reports.reports.filter fun r => r.content.isBatch).length)
          (s.reports.reports.filter fun r => r.content.isBatch).length
          (s.reports.reports.map fun r => r.content.recordCount).sum)
        { s with
          channels := s.channelsReturned s.reports.reports, reports := s.reports.emptied, link := s.link.uncached } := by
  simp only [linkResetRequest, readEmpty, sum_batchRecords, List.countP_eq_length_filter, State.returnBatches,
    State.setReports, State.setLink]
  rfl

/-- A handler that changes the link beside its request queue and leaves the hold alone: its answer is stored in the link it
left. -/
theorem requestStep_answered_in (h : Handler) {f : Frame} {s : State} (hx : Executes s f)
    (hk : isRequestKind f.kind = true) (hl : f.body.length ≤ Config.maxBody) {r : Reply} {t : State} {l : Link}
    (he : h f.body s.dequeued = (r, t)) (ht : t.link = { l with requests := l.requests.tail }) (hh : t.hold = none) :
    requestStep h f s = t.setLink (l.answered (f.answer r)) := by
  rw [requestStep_executes h hx hk hl (by rw [he]; exact hh), he]
  dsimp only
  rw [ht]
  rfl

/-- Settles O31: what the handler leaves, with its answer stored in the emptied cache. -/
theorem linkResetReturns : Obligations.LinkResetReturns := by
  intro s seq hx reports records batches
  have executed := requestStep_answered_in linkResetRequest (l := s.link.uncached) hx
    (isRequestKind_code .linkReset) (by simp) (linkResetRequest_empties s.dequeued) rfl hx.1
  exact congrArg Host.Outcome.next executed

/-! ### The expiry of the report timer (R138, R139) -/

/-- In SILENT the queue offers nothing, so only an answer waiting could be taken (R140). -/
theorem State.transmitChoice_silent {s : State} (hs : s.reports.state = .silent)
    (hw : s.link.waiting = none ∨ s.link.tx ≠ none) : s.transmitChoice = s := by
  rcases s.transmitChoice_cases with same | ⟨a, -, idle, waiting, -⟩ | ⟨k, r, -, -, -, offered, -, -⟩
  · exact same
  · rcases hw with hw | hw
    · cases hw.symm.trans waiting
    · exact absurd idle hw
  · rw [ReportQueue.offered, hs] at offered
    cases offered

/-- The queue at the expiry of its timer, at the retry limit (R139). -/
def ReportQueue.silenced (q : ReportQueue) : ReportQueue := { q with timer := none, state := .silent }

theorem Causes.within_ofSilence (c : Causes) : Causes.ofSilence.within c = c.silence := by
  obtain ⟨request, stopLine, silence⟩ := c
  cases silence <;> simp [Causes.within, Causes.union, Causes.ofSilence]

theorem HaltUnit.joined_ofSilence (h : HaltUnit) :
    h.joined Causes.ofSilence =
      { h with
        causes := { h.causes with silence := true }
        slot := some { h.slot.getD ⟨false, false, false⟩ with silence := true } } := by
  simp [HaltUnit.joined, HaltUnit.openSlot, Causes.union, Causes.ofSilence, Causes.empty]

section Expiry

variable {s : State} (ht : s.reports.timer ≠ none)
include ht

theorem exec_reportTimerExpiry : exec .reportTimerExpiry s = .next s.reportTimerExpires.transmitChoice := by
  simp [exec, execReportTimerExpiry, Option.isSome_iff_ne_none.mpr ht]

theorem exec_reportTimerExpiry_below (hr : s.reports.retries < s.reports.retryLimit) :
    exec .reportTimerExpiry s =
      .next (s.setReports
        { s.reports with
          reports := markSent s.reports.reports, retries := s.reports.retries + 1, timer := none }).transmitChoice := by
  rw [exec_reportTimerExpiry ht, State.reportTimerExpires, if_pos hr]

/-- At the limit the queue falls SILENT, so that the transmitter finds nothing to choose. -/
theorem exec_reportTimerExpiry_limit (hr : s.reports.retryLimit ≤ s.reports.retries)
    (hw : s.link.waiting = none ∨ s.link.tx ≠ none) :
    exec .reportTimerExpiry s =
      .next (if s.reports.haltOnSilence then (s.setReports s.reports.silenced).addCause Causes.ofSilence
        else s.setReports s.reports.silenced) := by
  have expired : s.reportTimerExpires =
      if s.reports.haltOnSilence then (s.setReports s.reports.silenced).addCause Causes.ofSilence
        else s.setReports s.reports.silenced := if_neg hr.not_gt
  rw [exec_reportTimerExpiry ht, State.transmitChoice_silent] <;> rw [expired]
  · split
    · rw [State.addCause_reports]
      rfl
    · rfl
  · split
    · obtain ⟨-, -, -, link, -⟩ := (s.setReports s.reports.silenced).addCause_frame Causes.ofSilence
      rw [link]
      exact hw
    · exact hw

end Expiry

/-- Settles O58: below the limit; at it with nothing to add, HALTED, and RUNNING. -/
theorem reportTimerExpires : Obligations.ReportTimerExpires := by
  intro s ht hd hw silent added
  refine ⟨fun hr => exec_reportTimerExpiry_below ht hr, fun hr => ?_⟩
  rw [exec_reportTimerExpiry_limit ht hr hw]
  have within : Causes.ofSilence.within (s.setReports s.reports.silenced).halt.causes = s.halt.causes.silence :=
    Causes.within_ofSilence _
  refine ⟨fun hn => ?_, fun hos hc ha => ?_, fun hos ha => ?_⟩
  · rcases hn with hos | hc
    · rw [hos]
      rfl
    · rw [State.addCause_present (within.trans hc), ite_self]
      rfl
  · rw [if_pos hos, State.addCause_halted (within.trans hc) ha, HaltUnit.joined_ofSilence]
    rfl
  · have absent : s.halt.causes.silence = false := by rw [Causes.eq_empty ha]
    obtain ⟨enters, halt, reports, link⟩ := State.addCause_enters (s := s.setReports s.reports.silenced)
      (dueListOk_congr (s := s) rfl rfl hd) (within.trans absent) ha
    rw [if_pos hos]
    exact ⟨_, rfl, enters, reports, halt.trans (HaltUnit.joined_ofSilence _), link⟩

end Sys2Proof.Machine
end

section
/-! PROOF. Admission (section 8.2): the round-robin search, the class whose turn it is, and the one item admitted. -/

namespace Sys2Proof.Machine

/-! ### The round-robin search (R132, R133) -/

section Rotation

variable {n : Nat} (last : Fin n)

/-- How far an index stands behind the one served last, along the search. -/
def rotationRank (j : Fin n) : Nat := (j.val + n - last.val - 1) % n

theorem rotation_eq_rotate : rotation n last = (List.finRange n).rotate (last.val + 1) :=
  (List.rotate_eq_drop_append_take (by simp)).symm

theorem length_rotation : (rotation n last).length = n := by simp [rotation_eq_rotate]

theorem mem_rotation (j : Fin n) : j ∈ rotation n last := by simp [rotation_eq_rotate]

/-- Each index stands at its rank. -/
theorem rotationRank_getElem {k : Nat} (hk : k < (rotation n last).length) :
    rotationRank last (rotation n last)[k] = k := by
  rw [length_rotation] at hk
  have hl := last.isLt
  simp only [rotationRank, rotation_eq_rotate, List.getElem_rotate, List.getElem_finRange, List.length_finRange,
    Fin.val_cast]
  rcases Nat.lt_or_ge (k + (last.val + 1)) n with h | h
  · have wrapped : k + (last.val + 1) + n - last.val - 1 = k + n := by omega
    rw [Nat.mod_eq_of_lt h, wrapped, Nat.add_mod_right, Nat.mod_eq_of_lt hk]
  · have place : (k + (last.val + 1)) % n = k + (last.val + 1) - n := by
      rw [Nat.mod_eq_sub_mod h, Nat.mod_eq_of_lt (by omega)]
    have straight : k + (last.val + 1) - n + n - last.val - 1 = k := by omega
    rw [place, straight, Nat.mod_eq_of_lt hk]

/-- The search finds the first ready index behind the one served last. -/
theorem find_rotation {p : Fin n → Bool} {ready : Fin n → Prop} (hp : ∀ j, p j = true ↔ ready j) {i : Fin n}
    (hi : FirstAfter last i ready) : (rotation n last).find? p = some i := by
  obtain ⟨here, nearest⟩ := hi
  obtain ⟨k, hk, rfl⟩ := List.getElem_of_mem (mem_rotation last i)
  refine List.find?_eq_some_iff_getElem.mpr ⟨(hp _).mpr here, k, hk, rfl, fun j hj => ?_⟩
  rw [Bool.not_eq_true', Bool.eq_false_iff, Ne, hp]
  intro earlier
  have rank : rotationRank last (rotation n last)[k] ≤ rotationRank last (rotation n last)[j] := nearest _ earlier
  rw [rotationRank_getElem, rotationRank_getElem] at rank
  omega

/-- The search finds nothing when nothing is ready, and only then. -/
theorem find_rotation_eq_none {p : Fin n → Bool} : (rotation n last).find? p = none ↔ ∀ j, p j = false := by
  simp [List.find?_eq_none, mem_rotation]

end Rotation

/-! ### The class whose turn it is (R131 to R133) -/

section Choice

variable {s : State}

theorem State.batchReady_iff (s : State) (c : ChanIx) : (s.channel c).batchReady = true ↔ BatchReady s c := by
  simp [Channel.batchReady, BatchReady, or_assoc]

theorem State.readyNotice_halt (hs : s.halt.slot ≠ none) : s.readyNotice = some .halt :=
  if_pos (Option.isSome_iff_ne_none.mpr hs)

section NoHalt

variable (hs : s.halt.slot = none)
include hs

theorem State.readyNotice_entry {i : EntryIx} (hi : FirstAfter s.reports.lastEntry i (SlotPending s)) :
    s.readyNotice = some (.entry i) := by
  simp only [State.readyNotice, hs, find_rotation _ s.entryReady_iff hi]
  rfl

/-- With no entry slot pending, the level slots are searched. -/
theorem State.readyNotice_noEntry (he : ∀ i, ¬SlotPending s i) :
    s.readyNotice =
      ((rotation 16 s.reports.lastLevel).find? fun c => (s.channel c).level.isSome).map Ready.level := by
  have idle : (rotation 64 s.reports.lastEntry).find? s.entryReady = none :=
    (find_rotation_eq_none _).mpr fun i => Bool.eq_false_iff.mpr fun h => he i ((s.entryReady_iff i).mp h)
  simp only [State.readyNotice, hs, idle]
  rfl

theorem State.readyNotice_level (he : ∀ i, ¬SlotPending s i) {c : ChanIx}
    (hc : FirstAfter s.reports.lastLevel c fun c => (s.channel c).level ≠ none) :
    s.readyNotice = some (.level c) := by
  rw [State.readyNotice_noEntry hs he, find_rotation _ (fun _ => Option.isSome_iff_ne_none) hc]
  rfl

end NoHalt

theorem State.readyNotice_none (hn : ¬NoticeReady s) : s.readyNotice = none := by
  obtain ⟨slot, entries, levels⟩ : s.halt.slot = none ∧ (∀ i, ¬SlotPending s i) ∧ ∀ c, (s.channel c).level = none := by
    simpa only [NoticeReady, not_or, not_exists, not_not] using hn
  have idle : (rotation 16 s.reports.lastLevel).find? (fun c => (s.channel c).level.isSome) = none :=
    (find_rotation_eq_none _).mpr fun c => by simp [levels c]
  rw [State.readyNotice_noEntry slot entries, idle]
  rfl

theorem State.readyBatch_first {c : ChanIx} (hc : FirstAfter s.reports.lastBatch c (BatchReady s)) :
    s.readyBatch = some (.batch c) := by
  rw [State.readyBatch, find_rotation _ (State.batchReady_iff s) hc]
  rfl

theorem State.readyBatch_none (hb : ∀ c, ¬BatchReady s c) : s.readyBatch = none := by
  have idle : (rotation 16 s.reports.lastBatch).find? (fun c => (s.channel c).batchReady) = none :=
    (find_rotation_eq_none _).mpr fun c => Bool.eq_false_iff.mpr fun h => hb c ((State.batchReady_iff s c).mp h)
  rw [State.readyBatch, idle]
  rfl

theorem State.choose_nothing (hn : ¬NoticeReady s) (hb : ∀ c, ¬BatchReady s c) : s.choose = none := by
  rw [State.choose, State.readyNotice_none hn, State.readyBatch_none hb]

/-- The notices are served when no batch is ready or the batches had the turn before (R133). -/
theorem State.choose_notice (hn : NoticeServed s) {item : Ready} (hi : s.readyNotice = some item) :
    s.choose = some item := by
  obtain ⟨-, turn⟩ := hn
  rcases turn with none_ready | batch_last
  · rw [State.choose, hi, State.readyBatch_none none_ready]
  · rw [State.choose, hi, batch_last]
    cases s.readyBatch <;> rfl

/-- A batch is served when no notice is ready or the notices had the turn before (R133). -/
theorem State.choose_batch (hn : ¬NoticeServed s) {item : Ready} (hi : s.readyBatch = some item) :
    s.choose = some item := by
  by_cases ready : NoticeReady s
  · have notice_last : s.reports.lastClass = .notice := by
      cases last : s.reports.lastClass with
      | notice => rfl
      | batch => exact absurd ⟨ready, .inr last⟩ hn
    rw [State.choose, hi, notice_last]
    cases s.readyNotice <;> rfl
  · rw [State.choose, hi, State.readyNotice_none ready]

end Choice

/-! ### One admission (R131) -/

section Admission

variable {s : State}

theorem exec_admission_full (hq : 32 ≤ s.reports.reports.length) : exec .admission s = .next s := by
  simp [exec, execAdmission, State.admitOne, Config.reportPlaces, hq.not_gt]

theorem exec_admission_nothing (hc : s.choose = none) : exec .admission s = .next s := by
  simp [exec, execAdmission, State.admitOne, hc]

theorem exec_admission (hh : s.hold = none) (hq : s.reports.reports.length < 32) {item : Ready}
    (hc : s.choose = some item) : exec .admission s = .next (s.admitItem item).transmitChoice := by
  simp [exec, execAdmission, State.admitOne, Config.reportPlaces, hh, hq, hc]

/-! ### The item admitted (R46, R87, R99, R119) -/

theorem State.admitItem_halt {added : Causes} (hs : s.halt.slot = some added) :
    s.admitItem .halt =
      (s.setHalt { s.halt with slot := none }).setReports
        { s.reports.push (.halt s.halt.causes.any s.halt.causes added s.halt.stopFiltered) with
          lastClass := .notice } := by
  simp only [State.admitItem, State.admitHalt, hs]
  rfl

theorem State.admitItem_entry {i : EntryIx} {e : Entry} {n : EntryNotice} (he : s.entry i = some e)
    (hn : e.slot = .pending n) :
    s.admitItem (.entry i) =
      (s.setEntry i (if e.progress = .retired then none else some { e with slot := .empty })).setReports
        { s.reports.push (.entry i e.plan.tag n) with lastClass := .notice, lastEntry := i } := by
  simp only [State.admitItem, State.admitEntry, he, hn]

theorem State.admitItem_level {c : ChanIx} {n : LevelNotice} (hn : (s.channel c).level = some n) :
    s.admitItem (.level c) =
      (s.setChannel c { s.channel c with level := none }).setReports
        { s.reports.push (.level c (s.channel c).filtered n) with lastClass := .notice, lastLevel := c } := by
  simp only [State.admitItem, State.admitLevel, hn]

end Admission

/-- Settles O59: the queue full, nothing ready, and each kind of item first in turn. -/
theorem admissionServes : Obligations.AdmissionServes := by
  intro s hh q pushed
  refine ⟨exec_admission_full, fun hn hb => exec_admission_nothing (State.choose_nothing hn hb), fun hq => ?_⟩
  refine ⟨fun added hn hs => ?_, fun i e n hn hs hi he hp => ?_, fun c n hn hs he hc hl => ?_, fun c hn hc => ?_⟩
  · have chosen : s.readyNotice = some .halt := State.readyNotice_halt (by simp [hs])
    rw [exec_admission hh hq (State.choose_notice hn chosen), State.admitItem_halt hs]
    rfl
  · rw [exec_admission hh hq (State.choose_notice hn (State.readyNotice_entry hs hi)), State.admitItem_entry he hp]
    rfl
  · rw [exec_admission hh hq (State.choose_notice hn (State.readyNotice_level hs he hc)), State.admitItem_level hl]
    rfl
  · exact exec_admission hh hq (State.choose_batch hn (State.readyBatch_first hc))

end Sys2Proof.Machine
end

section
/-! PROOF. The link's stores (sections 9.4 and 10.1): the request queue within four frames, the answer cache within four
answers with distinct numbers. Most operations leave the link alone, and a handler at most empties the cache; a frame
joins only below four, and an answer is stored only when no cached one has its number. -/

namespace Sys2Proof.Machine

/-! ### The condition, and one rule for each change of the link -/

/-- `LinkStoresOk` with its parts named (R158, R165, R166). -/
structure Link.StoresFit (l : Link) : Prop where
  requests : l.requests.length ≤ 4
  cache : l.cache.length ≤ 4
  distinct : (l.cache.map Answer.seq).Nodup

theorem linkStoresOk_iff (s : State) : LinkStoresOk s ↔ s.link.StoresFit :=
  ⟨fun ⟨requests, cache, distinct⟩ => ⟨requests, cache, distinct⟩,
    fun ⟨requests, cache, distinct⟩ => ⟨requests, cache, distinct⟩⟩

/-- The link's queue is kept and its cache gains no answer. -/
structure Link.StoresKept (l l' : Link) : Prop where
  requests : l'.requests = l.requests
  cache : l'.cache.Sublist l.cache

theorem Link.StoresKept.of_eq {l l' : Link} (h : l' = l) : l.StoresKept l' := h ▸ ⟨rfl, List.Sublist.refl _⟩

/-- A number that no cached answer has (R165). -/
theorem Link.cached_eq_none_iff {l : Link} {seq : Byte} : l.cached seq = none ↔ ∀ a ∈ l.cache, a.seq ≠ seq := by
  simp [Link.cached, List.find?_eq_none]

namespace Link.StoresFit

variable {l l' : Link} (h : l.StoresFit)
include h

theorem kept (k : l.StoresKept l') : l'.StoresFit :=
  ⟨k.requests ▸ h.requests, k.cache.length_le.trans h.cache, h.distinct.sublist (k.cache.map _)⟩

/-- Neither store is touched. -/
theorem same (hr : l'.requests = l.requests) (hc : l'.cache = l.cache) : l'.StoresFit :=
  h.kept ⟨hr, hc ▸ List.Sublist.refl _⟩

/-- A frame joins a queue with room (R158). -/
theorem join (room : l.requests.length < 4) (f : Frame) : Link.StoresFit { l with requests := l.requests ++ [f] } :=
  ⟨by simpa using room, h.cache, h.distinct⟩

/-- The head frame leaves the queue (R160). -/
theorem dequeue : Link.StoresFit { l with requests := l.requests.tail } :=
  ⟨by have := h.requests; rw [List.length_tail]; omega, h.cache, h.distinct⟩

/-- An answer with a number of its own is stored, the oldest dropped when four stood there (R166). -/
theorem store {a : Answer} (fresh : l.cached a.seq = none) : (l.store a).StoresFit := by
  have old := Link.cached_eq_none_iff.mp fresh
  unfold Link.store
  split
  · next room =>
    refine ⟨h.requests, ?_, ?_⟩
    · rw [List.length_append]
      exact room
    · rw [List.map_append, List.nodup_append']
      exact ⟨h.distinct, List.nodup_singleton _, by simpa [List.disjoint_singleton] using old⟩
  · refine ⟨h.requests, ?_, ?_⟩
    · have := h.cache
      rw [List.length_append, List.length_tail, List.length_singleton]
      omega
    · rw [List.map_append, List.nodup_append', List.map_tail]
      refine ⟨h.distinct.sublist (List.tail_sublist _), List.nodup_singleton _, ?_⟩
      rw [List.map_singleton, List.disjoint_singleton, ← List.map_tail, List.mem_map]
      rintro ⟨b, hb, same⟩
      exact old b (List.mem_of_mem_tail hb) same

end Link.StoresFit

/-! ### What leaves the link alone -/

section Frame

variable (s : State)

@[simp] theorem State.addCause_link (c : Causes) : (s.addCause c).link = s.link := by
  obtain ⟨-, -, -, link, -⟩ := s.addCause_frame c
  exact link

@[simp] theorem State.advance_link : s.advance.link = s.link := (sameOutside_advance s).link

@[simp] theorem State.acceptEdge_link (c : ChanIx) (stamp : Tick) : (s.acceptEdge c stamp).link = s.link :=
  (besideChannel_acceptEdge s c stamp).link

@[simp] theorem State.rawTransition_link (c : ChanIx) : (s.rawTransition c).link = s.link :=
  (besideChannel_rawTransition s c).link

@[simp] theorem State.admitItem_link (item : Ready) : (s.admitItem item).link = s.link := by
  obtain ⟨-, -, -, -, -, -, link⟩ := s.admitItem_frame item
  exact link

@[simp] theorem State.lingerExpires_link (c : ChanIx) : (s.lingerExpires c).link = s.link := rfl

@[simp] theorem State.acceptStop_link : s.acceptStop.link = s.link := by
  unfold State.acceptStop
  dsimp only
  split
  · split <;> simp
  · rfl

@[simp] theorem State.internalTick_link : s.internalTick.link = s.link := by
  unfold State.internalTick
  split <;> simp

@[simp] theorem State.cntRise_link : s.cntRise.link = s.link := by
  unfold State.cntRise
  split <;> simp

@[simp] theorem State.reportTimerExpires_link : s.reportTimerExpires.link = s.link := by
  unfold State.reportTimerExpires
  dsimp only
  split
  · rfl
  · split <;> simp

/-! ### The shares of a period that leave the link alone -/

@[simp] theorem State.prescalePeriod_link : s.prescalePeriod.link = s.link := by
  unfold State.prescalePeriod
  split
  · split <;> simp
  · rfl

@[simp] theorem State.cntPeriod_link : s.cntPeriod.link = s.link := by
  unfold State.cntPeriod
  dsimp only
  split <;> simp

@[simp] theorem State.stopPeriod_link : s.stopPeriod.link = s.link := by
  unfold State.stopPeriod
  split
  · split <;> rfl
  · split
    · rfl
    · split <;> simp

@[simp] theorem State.inputPeriod_link (c : ChanIx) : (s.inputPeriod c).link = s.link := by
  unfold State.inputPeriod
  dsimp only
  split
  · split <;> simp
  · split
    · rfl
    · split <;> simp

/-- What every turn of a loop leaves alone, the loop leaves alone. -/
theorem State.foldl_link {α : Type} {f : State → α → State} (hf : ∀ u a, (f u a).link = u.link) (l : List α) :
    (l.foldl f s).link = s.link := by
  induction l generalizing s with
  | nil => rfl
  | cons a l ih => exact (ih _).trans (hf s a)

@[simp] theorem State.inputsPeriod_link : s.inputsPeriod.link = s.link :=
  State.foldl_link s (fun u c => u.inputPeriod_link c) _

@[simp] theorem State.stepReportTimer_link : s.stepReportTimer.link = s.link := by
  unfold State.stepReportTimer
  split <;> simp

@[simp] theorem State.stepLinger_link (c : ChanIx) : (s.stepLinger c).link = s.link := by
  unfold State.stepLinger
  split <;> rfl

end Frame

/-! ### The receiver, the transmitter and the device reset -/

section Operations

variable {s : State} (h : s.link.StoresFit)
include h

theorem Link.StoresFit.offerFrame (f : Frame) : (s.offerFrame f).link.StoresFit := by
  unfold State.offerFrame
  split
  · next room => exact h.join room f
  · exact h.same rfl rfl

theorem Link.StoresFit.completeFrame (low high : Byte) (content : List Byte) (crcLow crcHigh : Byte) :
    (s.completeFrame low high content crcLow crcHigh).link.StoresFit := by
  have hunting : (s.setLink s.link.toHunt).link.StoresFit := h.same rfl rfl
  unfold State.completeFrame
  dsimp only
  split
  · split
    · split
      · exact hunting.offerFrame _
      · exact hunting.same rfl rfl
    · exact hunting.same rfl rfl
  · exact hunting.same rfl rfl

/-- Only a complete frame reaches the request queue (Table 9-2). -/
theorem Link.StoresFit.receive (value : Byte) (stopBit : Bool) : (s.receive value stopBit).link.StoresFit := by
  have moved : ∀ r, (s.link.receive r).StoresFit := fun _ => h.same rfl rfl
  have rejected : s.rejectFraming.link.StoresFit := h.same rfl rfl
  unfold State.receive
  split
  · split
    · exact moved _
    · exact h
  · split
    · split
      · exact moved _
      · split
        · exact moved _
        · exact rejected
    · exact rejected
  · split
    · split <;> exact moved _
    · exact rejected
  · split
    · split
      · exact moved _
      · exact h.completeFrame _ _ _ _ _
    · exact rejected

theorem Link.StoresFit.transmitChoice : s.transmitChoice.link.StoresFit := by
  rcases s.transmitChoice_cases with e | ⟨a, -, -, -, e⟩ | ⟨k, r, -, -, -, -, -, e⟩ <;> rw [e]
  · exact h
  · exact h.same rfl rfl
  · exact h.same rfl rfl

theorem Link.StoresFit.admitOne : s.admitOne.link.StoresFit := by
  unfold State.admitOne
  split
  · split
    · exact Link.StoresFit.transmitChoice (by rwa [State.admitItem_link])
    · exact h
  · exact h

end Operations

/-- After a device reset both stores are empty (R163). -/
theorem Link.storesFit_afterReset (rate1 rate0 rxRaw : Bool) : (Link.afterReset rate1 rate0 rxRaw).StoresFit :=
  ⟨Nat.zero_le _, Nat.zero_le _, List.nodup_nil⟩

theorem State.beginReset_storesFit (s : State) (cause : ResetCause) : (s.beginReset cause).link.StoresFit :=
  Link.storesFit_afterReset _ _ _

theorem State.endReset_storesFit (s : State) (cause : ResetCause) : (s.endReset cause).link.StoresFit := by
  have fresh : (s.afterReset cause).link.StoresFit := Link.storesFit_afterReset _ _ _
  unfold State.endReset
  refine Link.StoresFit.transmitChoice ?_
  split
  · rwa [State.addCause_link]
  · exact fresh

theorem Link.StoresFit.frameEnds {s : State} (h : s.link.StoresFit) : s.frameEnds.link.StoresFit := by
  unfold State.frameEnds
  split
  · exact h.transmitChoice
  · split
    · exact s.beginReset_storesFit _
    · refine Link.StoresFit.transmitChoice ?_
      split <;> exact h.same rfl rfl

/-! ### Requests -/

/-- A handler leaves the link alone. -/
def Handler.LeavesLink (f : Handler) : Prop := ∀ (body : List Byte) (s : State), (f body s).2.link = s.link

/-- A handler leaves the request queue alone and stores no answer. -/
def Handler.KeepsStores (f : Handler) : Prop :=
  ∀ (body : List Byte) (s : State), s.link.StoresKept (f body s).2.link

theorem Handler.LeavesLink.keeps {f : Handler} (hf : f.LeavesLink) : f.KeepsStores :=
  fun body s => Link.StoresKept.of_eq (hf body s)

theorem Handler.leavesLink_of_reads {f : Handler} (hf : ∀ body s, (f body s).2 = s) : f.LeavesLink :=
  fun body s => congrArg State.link (hf body s)

theorem keepsStores_statusRequest : Handler.KeepsStores statusRequest := by
  intro body s
  unfold statusRequest
  split
  · exact .of_eq rfl
  · dsimp only [accept]
    split
    · exact ⟨rfl, List.Sublist.refl _⟩
    · exact .of_eq rfl

theorem keepsStores_restartRequest : Handler.KeepsStores restartRequest := by
  intro body s
  unfold restartRequest
  split
  · exact .of_eq rfl
  · exact ⟨rfl, List.Sublist.refl _⟩

/-- LINK-RESET empties the cache (R147). -/
theorem keepsStores_linkResetRequest : Handler.KeepsStores linkResetRequest := by
  intro body s
  unfold linkResetRequest
  split
  · exact .of_eq rfl
  · exact ⟨rfl, List.nil_sublist _⟩

theorem leavesLink_placeRequest : Handler.LeavesLink placeRequest := by
  intro body s
  unfold placeRequest
  split
  · rfl
  · split
    · rfl
    · split
      · rfl
      · split
        · rfl
        · split
          · rfl
          · exact (sameOutside_placeAt s _ _).link

theorem leavesLink_cancelRequest : Handler.LeavesLink cancelRequest := by
  intro body s
  unfold cancelRequest
  split
  · rfl
  · dsimp only
    split
    · rfl
    · exact (sameOutside_foldl (fun u i => sameOutside_cancelEntry (s := u) (i := i)) _ s).link

theorem leavesLink_timelineClearRequest : Handler.LeavesLink timelineClearRequest := by
  intro body s
  cases body with
  | nil => rw [timelineClearRequest_clears]; rfl
  | cons b rest => rw [timelineClearRequest_error (List.cons_ne_nil b rest)]; rfl

theorem leavesLink_haltRequest : Handler.LeavesLink haltRequest := by
  intro body s
  unfold haltRequest
  split
  · rfl
  · exact s.addCause_link _

theorem leavesLink_stopSetupRequest : Handler.LeavesLink stopSetupRequest := by
  intro body s
  unfold stopSetupRequest
  split
  · rfl
  · dsimp only [accept]
    split
    · exact State.addCause_link _ _
    · rfl

theorem leavesLink_flushRequest : Handler.LeavesLink flushRequest := by
  intro body s
  unfold flushRequest
  split
  · rfl
  · next named _ =>
    change (s.flushAll named).link = s.link
    rw [State.flushAll_onlyChannels]

/-- The link's own STATUS, RESTART and LINK-RESET alone reach it; the requests of the third group write other blocks. -/
theorem keepsStores_handlerFor (k : RequestKind) : (handlerFor k).KeepsStores := by
  cases k with
  | hello => exact (Handler.leavesLink_of_reads helloRequest_reads).keeps
  | timeRead => exact (Handler.leavesLink_of_reads timeReadRequest_reads).keeps
  | entryQuery => exact (Handler.leavesLink_of_reads entryQueryRequest_reads).keeps
  | entryList => exact (Handler.leavesLink_of_reads entryListRequest_reads).keeps
  | linesRead => exact (Handler.leavesLink_of_reads linesReadRequest_reads).keeps
  | status => exact keepsStores_statusRequest
  | restart => exact keepsStores_restartRequest
  | linkReset => exact keepsStores_linkResetRequest
  | place => exact leavesLink_placeRequest.keeps
  | cancel => exact leavesLink_cancelRequest.keeps
  | timelineClear => exact leavesLink_timelineClearRequest.keeps
  | halt => exact leavesLink_haltRequest.keeps
  | stopSetup => exact leavesLink_stopSetupRequest.keeps
  | flush => exact leavesLink_flushRequest.keeps
  | ack | reportsOn | linkSetup | timeSetup | timeSet | timeRun | timeStop | lineSetup | lineWrite | resume
    | channelSetup | channelQuery =>
    intro body s
    refine .of_eq ?_
    simp only [handlerFor, ackRequest, reportsOnRequest, linkSetupRequest, timeSetupRequest, timeSetRequest,
      timeRunRequest, timeStopRequest, lineSetupRequest, lineWriteRequest, resumeRequest, channelSetupRequest,
      channelQueryRequest, accept]
    repeat' split
    all_goals rfl

theorem keepsStores_handlerOf (kind : Byte) : (handlerOf kind).KeepsStores := by
  unfold handlerOf
  split
  · exact keepsStores_handlerFor _
  · exact fun _ _ => .of_eq rfl

section Requests

variable {s : State} (h : s.link.StoresFit) {f : Handler} (hf : f.KeepsStores)
include h hf

/-- A frame is executed only when no cached answer has its number, so that its answer may be stored (R165, R166). -/
theorem Link.StoresFit.takeHead (g : Frame) : (s.takeHead f g).link.StoresFit := by
  have taken : s.dequeued.link.StoresFit := h.dequeue
  refine Link.StoresFit.transmitChoice ?_
  change (s.dequeued.executeFrame f g).link.StoresFit
  unfold State.executeFrame
  split
  · exact taken.same rfl rfl
  · next fresh =>
    have handled := hf g.body s.dequeued
    have still_fresh : (f g.body s.dequeued).2.link.cached g.seq = none :=
      Link.cached_eq_none_iff.mpr fun a ha => Link.cached_eq_none_iff.mp fresh a (handled.cache.subset ha)
    exact ((taken.kept handled).store (a := g.answer _) still_fresh).same rfl rfl

theorem Link.StoresFit.requestStep (g : Frame) : (requestStep f g s).link.StoresFit := by
  have served : ∀ {u : State}, u.link.StoresFit → (if u.headIs g then u.takeHead f g else u).link.StoresFit := by
    intro u hu
    split
    · exact hu.takeHead hf g
    · exact hu
  unfold Machine.requestStep
  split
  · exact h
  · split
    · exact h.same rfl rfl
    · refine served ?_
      split
      · exact h
      · exact h.offerFrame g

end Requests

/-! ### The base clock -/

section Periods

variable {s : State} (h : s.link.StoresFit)
include h

theorem Link.StoresFit.rxPeriod : s.rxPeriod.link.StoresFit := by
  have sampled : ∀ x, (s.setLink { s.link with rxSampler := x }).link.StoresFit := fun _ => h.same rfl rfl
  unfold State.rxPeriod
  dsimp only
  split
  · split
    · exact sampled _
    · exact h
  · split <;> exact sampled _
  · split
    · split <;> exact sampled _
    · split
      · exact sampled _
      · exact (sampled _).receive _ _

theorem Link.StoresFit.msPeriod : s.msPeriod.link.StoresFit := by
  unfold State.msPeriod
  split
  · rw [State.msStep, State.foldl_link _ fun u c => u.stepLinger_link c, State.stepReportTimer_link]
    unfold State.stepGap
    split <;> exact h.same rfl rfl
  · exact h

theorem Link.StoresFit.txPeriod : s.txPeriod.link.StoresFit := by
  unfold State.txPeriod
  split
  · exact h.transmitChoice
  · split
    · exact h.frameEnds
    · exact h.same rfl rfl

theorem Link.StoresFit.serveRequest : s.serveRequest.link.StoresFit := by
  unfold State.serveRequest
  split
  · split
    · exact h.takeHead (keepsStores_handlerOf _) _
    · exact h
  · exact h

theorem Link.StoresFit.basePeriod : s.basePeriod.link.StoresFit := by
  unfold State.basePeriod
  split
  · unfold State.holdPeriod
    split
    · exact s.endReset_storesFit _
    · exact h
  · have filtered : s.prescalePeriod.cntPeriod.stopPeriod.inputsPeriod.link.StoresFit := by simpa using h
    exact filtered.rxPeriod.msPeriod.txPeriod.serveRequest.admitOne

end Periods

/-! ### Every command and every step -/

section Commands

variable {s t : State} (h : s.link.StoresFit)
include h

theorem Link.StoresFit.exec_command (k : RequestKind) (seq : Byte) (body : List Byte)
    (he : exec (k.command seq body) s = .next t) : t.link.StoresFit := by
  rw [Machine.exec_command] at he
  cases he
  exact h.requestStep (keepsStores_handlerFor k) _

theorem Link.StoresFit.exec {c : Instr} (he : exec c s = .next t) : t.link.StoresFit := by
  cases c with
  | hello seq body => exact h.exec_command .hello seq body he
  | status seq body => exact h.exec_command .status seq body he
  | restart seq body => exact h.exec_command .restart seq body he
  | unknown kind seq body => cases he; exact h.requestStep (keepsStores_handlerOf kind) _
  | answerCacheResend kind seq body => cases he; exact h.requestStep (keepsStores_handlerOf kind) _
  | ack seq body => exact h.exec_command .ack seq body he
  | reportsOn seq body => exact h.exec_command .reportsOn seq body he
  | linkSetup seq body => exact h.exec_command .linkSetup seq body he
  | linkReset seq body => exact h.exec_command .linkReset seq body he
  | timeSetup seq body => exact h.exec_command .timeSetup seq body he
  | timeSet seq body => exact h.exec_command .timeSet seq body he
  | timeRun seq body => exact h.exec_command .timeRun seq body he
  | timeStop seq body => exact h.exec_command .timeStop seq body he
  | timeRead seq body => exact h.exec_command .timeRead seq body he
  | place seq body => exact h.exec_command .place seq body he
  | entryQuery seq body => exact h.exec_command .entryQuery seq body he
  | entryList seq body => exact h.exec_command .entryList seq body he
  | cancel seq body => exact h.exec_command .cancel seq body he
  | timelineClear seq body => exact h.exec_command .timelineClear seq body he
  | lineSetup seq body => exact h.exec_command .lineSetup seq body he
  | lineWrite seq body => exact h.exec_command .lineWrite seq body he
  | linesRead seq body => exact h.exec_command .linesRead seq body he
  | halt seq body => exact h.exec_command .halt seq body he
  | resume seq body => exact h.exec_command .resume seq body he
  | stopSetup seq body => exact h.exec_command .stopSetup seq body he
  | channelSetup seq body => exact h.exec_command .channelSetup seq body he
  | channelQuery seq body => exact h.exec_command .channelQuery seq body he
  | flush seq body => exact h.exec_command .flush seq body he
  | internalTick =>
    cases he
    rwa [State.internalTick_link]
  | cntRisingEdge | rawTransition | edgeAccepted | glitch | stopWindowOpen | stopGlitch | stopLevelAccepted
    | lingerExpiry =>
    cases he
    repeat' split
    all_goals simpa [State.openStopWindow, State.stopReturns] using h
  | reportTimerExpiry =>
    cases he
    split
    · exact Link.StoresFit.transmitChoice (by rwa [State.reportTimerExpires_link])
    · exact h
  | admission => cases he; exact h.admitOne
  | rxCharacter value stopBit =>
    cases he
    split
    · exact h
    · exact h.receive value stopBit
  | gapAbort =>
    cases he
    split
    · exact h
    · exact h.same rfl rfl
  | txFrameEnd => cases he; exact h.frameEnds
  | powerOn => cases he; exact s.beginReset_storesFit _
  | resetPin =>
    cases he
    split
    · split
      · exact h
      · exact s.beginReset_storesFit _
    · exact s.beginReset_storesFit _
  | resetEnd rate1 rate0 stop inputs =>
    cases he
    split
    · exact State.endReset_storesFit _ _
    · exact h

end Commands

/-- Settles O5: every command and every period keeps both stores. -/
theorem linkStoresKept : Obligations.LinkStoresKept := by
  intro s t hs he
  have h := (linkStoresOk_iff s).mp hs
  refine (linkStoresOk_iff t).mpr ?_
  unfold step at he
  split at he
  · next c rest _ =>
    have ready : (s.setPending rest).link.StoresFit := h
    exact ready.exec he
  · cases he
    exact h.basePeriod

end Sys2Proof.Machine
end

section
/-! PROOF. The receiver (sections 9.2 and 9.3): what one character does in each of its states, and a whole frame fed to
it character by character. -/

namespace Sys2Proof.Machine

/-! ### One character in each state (Table 9-2) -/

section Character

variable {s : State}

theorem exec_rxCharacter (hh : s.hold = none) (v : Byte) (stop : Bool) :
    exec (.rxCharacter v stop) s = .next (s.receive v stop) := by
  simp [exec, execRxCharacter, hh]

theorem exec_gapAbort (hr : s.link.receiver ≠ .hunt) : exec .gapAbort s = .next s.gapAbort := by
  simp [exec, execGapAbort, hr]

/-- The state with the receiver moved on and the gap timer started afresh (R155). -/
def State.receiving (s : State) (r : Receiver) : State := s.setLink (s.link.receive r)

theorem State.receive_start (hr : s.link.receiver = .hunt) : s.receive 0xC3 true = s.receiving (.length []) := by
  simp [State.receive, hr, Config.startByte, State.receiving]

theorem State.receive_hunt {v : Byte} {stop : Bool} (hr : s.link.receiver = .hunt) (hv : stop = false ∨ v ≠ 0xC3) :
    s.receive v stop = s := by
  rcases hv with rfl | hv <;> simp_all [State.receive, Config.startByte]

theorem State.receive_lengthLow {v : Byte} (hr : s.link.receiver = .length []) :
    s.receive v true = s.receiving (.length [v]) := by
  simp [State.receive, hr, State.receiving]

theorem State.receive_lengthHigh {low v : Byte} (hr : s.link.receiver = .length [low]) (h2 : 2 ≤ number16 low v)
    (h514 : number16 low v ≤ 514) : s.receive v true = s.receiving (.body low v (number16 low v) []) := by
  simp [State.receive, hr, Config.minLength, Config.maxLength, h2, h514, State.receiving]

theorem State.receive_lengthBad {low v : Byte} (hr : s.link.receiver = .length [low])
    (hn : number16 low v < 2 ∨ 514 < number16 low v) : s.receive v true = s.rejectFraming := by
  have unfit : ¬(Config.minLength ≤ number16 low v ∧ number16 low v ≤ Config.maxLength) := by
    unfold Config.minLength Config.maxLength
    omega
  simp only [State.receive, hr, if_true, if_neg unfit]

theorem State.receive_body {v low high : Byte} {left : Nat} {taken : List Byte}
    (hr : s.link.receiver = .body low high left taken) :
    s.receive v true =
      s.receiving
        (if 2 ≤ left then .body low high (left - 1) (taken ++ [v]) else .check low high (taken ++ [v]) []) := by
  by_cases more : 2 ≤ left
  · simp only [State.receive, hr, if_true, if_pos more, if_neg (show ¬left ≤ 1 by omega), State.receiving]
  · simp only [State.receive, hr, if_true, if_neg more, if_pos (show left ≤ 1 by omega), State.receiving]

theorem State.receive_crcLow {v low high : Byte} {content : List Byte}
    (hr : s.link.receiver = .check low high content []) :
    s.receive v true = s.receiving (.check low high content [v]) := by
  simp [State.receive, hr, State.receiving]

theorem State.receive_crcHigh {v low high crcLow : Byte} {content : List Byte}
    (hr : s.link.receiver = .check low high content [crcLow]) :
    s.receive v true = s.completeFrame low high content crcLow v := by
  simp [State.receive, hr]

/-- A bad stop bit inside a frame rejects it (R154). -/
theorem State.receive_badStop {v : Byte} (hr : s.link.receiver ≠ .hunt) : s.receive v false = s.rejectFraming := by
  unfold State.receive
  split
  · next hunting => exact absurd hunting hr
  all_goals rfl

end Character

/-- Settles O13: each state of the receiver in turn, and the gap. -/
theorem receiverSteps : Obligations.ReceiverSteps := by
  intro s v stop hh go abort
  rw [exec_rxCharacter hh]
  refine ⟨?_, fun hr hv => congrArg _ (State.receive_hunt hr hv), ?_, fun low hr => ?_,
    fun low high left taken hr => ?_, fun low high content hr => ?_, ?_, fun hr => exec_gapAbort hr⟩
  · rintro hr rfl rfl
    exact congrArg _ (State.receive_start hr)
  · rintro hr rfl
    exact congrArg _ (State.receive_lengthLow hr)
  · rintro rfl
    exact ⟨fun h2 h514 => congrArg _ (State.receive_lengthHigh hr h2 h514),
      fun hn => congrArg _ (State.receive_lengthBad hr hn)⟩
  · rintro rfl
    exact congrArg _ (State.receive_body hr)
  · rintro rfl
    exact congrArg _ (State.receive_crcLow hr)
  · rintro hr rfl
    exact congrArg _ (State.receive_badStop hr)

/-! ### A frame fed character by character -/

@[simp] theorem State.receiving_receiving (s : State) (r r' : Receiver) :
    (s.receiving r).receiving r' = s.receiving r' := rfl

/-- The disposal of a frame does not look at where the receiver stands (R151). -/
@[simp] theorem State.completeFrame_receiving (s : State) (r : Receiver) (low high : Byte) (content : List Byte)
    (crcLow crcHigh : Byte) :
    (s.receiving r).completeFrame low high content crcLow crcHigh = s.completeFrame low high content crcLow crcHigh :=
  rfl

theorem checkedBytes_eq (kind seq : Byte) (body : List Byte) :
    checkedBytes kind seq body =
      BitVec.ofNat 8 (body.length + 2) :: BitVec.ofNat 8 ((body.length + 2) / 256) :: kind :: seq :: body := rfl

section Fed

variable {s : State} (hh : s.hold = none)
include hh

theorem feed_cons (b : Byte) (rest : List Byte) : feed (b :: rest) s = feed rest (s.receive b true) := by
  simp only [feed, exec_rxCharacter hh]

/-- Two length bytes in range lead from HUNT to the content (R151, R152). -/
theorem feed_length (hr : s.link.receiver = .hunt) {low high : Byte} (h2 : 2 ≤ number16 low high)
    (h514 : number16 low high ≤ 514) (rest : List Byte) :
    feed (0xC3 :: low :: high :: rest) s = feed rest (s.receiving (.body low high (number16 low high) [])) := by
  rw [feed_cons hh, State.receive_start hr, feed_cons (by exact hh), State.receive_lengthLow rfl,
    feed_cons (by exact hh), State.receive_lengthHigh rfl h2 h514]
  rfl

/-- The characters of the content are collected one by one, and the last of them ends it (R152). -/
theorem feed_content {low high : Byte} (b : Byte) (content : List Byte) (taken rest : List Byte) :
    feed (b :: (content ++ rest)) (s.receiving (.body low high (content.length + 1) taken)) =
      feed rest (s.receiving (.check low high (taken ++ b :: content) [])) := by
  induction content generalizing b taken with
  | nil =>
    rw [feed_cons (by exact hh), State.receive_body rfl]
    rfl
  | cons c content ih =>
    rw [feed_cons (by exact hh), State.receive_body rfl, if_pos (by simp), State.receiving_receiving, List.cons_append,
      List.length_cons, Nat.add_sub_cancel, ih c (taken ++ [b]), List.append_assoc]
    rfl

/-- The two CRC bytes complete the frame (R153). -/
theorem feed_crc {low high : Byte} (content : List Byte) (crcLow crcHigh : Byte) :
    feed [crcLow, crcHigh] (s.receiving (.check low high content [])) =
      s.completeFrame low high content crcLow crcHigh := by
  rw [feed_cons (by exact hh), State.receive_crcLow rfl, feed_cons (by exact hh), State.receive_crcHigh rfl]
  rfl

/-- A frame whose body fits reaches its disposal with its content and the CRC it was given. -/
theorem feed_frame (hr : s.link.receiver = .hunt) (kind seq crcLow crcHigh : Byte) {body : List Byte}
    (hb : body.length ≤ 512) :
    feed (0xC3 :: checkedBytes kind seq body ++ [crcLow, crcHigh]) s =
      s.completeFrame (BitVec.ofNat 8 (body.length + 2)) (BitVec.ofNat 8 ((body.length + 2) / 256))
        (kind :: seq :: body) crcLow crcHigh := by
  have length := number16_bytes16 (n := body.length + 2) (by omega)
  have collected := feed_length hh hr (by rw [length]; omega) (by rw [length]; omega)
    (kind :: (seq :: body ++ [crcLow, crcHigh]))
  rw [length] at collected
  exact (collected.trans (feed_content hh kind (seq :: body) [] _)).trans (feed_crc hh _ crcLow crcHigh)

end Fed

/-! ### The disposal of a frame (R153, R156, R158) -/

theorem isRequestKind_eq_false {kind : Byte} (hk : kind.toNat < 1 ∨ 0x2F < kind.toNat) :
    isRequestKind kind = false := by
  rw [isRequestKind, Bool.and_eq_false_iff, decide_eq_false_iff_not, decide_eq_false_iff_not]
  omega

theorem isRequestKind_eq_true {kind : Byte} (h1 : 1 ≤ kind.toNat) (h2F : kind.toNat ≤ 0x2F) :
    isRequestKind kind = true := by
  rw [isRequestKind, Bool.and_eq_true, decide_eq_true_iff, decide_eq_true_iff]
  exact ⟨h1, h2F⟩

/-- The state with the receiver back in HUNT. -/
def State.hunting (s : State) : State := s.setLink s.link.toHunt

section Disposal

variable {s : State} {low high kind seq crcLow crcHigh : Byte} {body : List Byte}

theorem State.completeFrame_badCrc (hc : crc (low :: high :: kind :: seq :: body) ≠ tag16 crcLow crcHigh) :
    s.completeFrame low high (kind :: seq :: body) crcLow crcHigh =
      s.hunting.setLink { s.hunting.link with crcErrors := satAdd s.hunting.link.crcErrors 1 } := if_neg hc

variable (hc : crc (low :: high :: kind :: seq :: body) = tag16 crcLow crcHigh)
include hc

theorem State.completeFrame_badKind (hk : isRequestKind kind = false) :
    s.completeFrame low high (kind :: seq :: body) crcLow crcHigh = s.hunting.framingError := by
  simp only [State.completeFrame, if_pos hc, hk]
  rfl

theorem State.completeFrame_good (hk : isRequestKind kind = true) :
    s.completeFrame low high (kind :: seq :: body) crcLow crcHigh = s.hunting.offerFrame ⟨kind, seq, body⟩ := by
  simp only [State.completeFrame, if_pos hc, hk]
  rfl

end Disposal

/-- A good frame joins the queue or is an overrun (R158). -/
theorem State.offerFrame_eq (s : State) (f : Frame) :
    s.offerFrame f =
      s.setLink
        (if s.link.requests.length < 4 then { s.link with requests := s.link.requests ++ [f] }
        else { s.link with overruns := min (s.link.overruns + 1) 65535 }) := by
  unfold State.offerFrame
  split
  · next room => rw [if_pos (by exact room)]
  · next full => rw [if_neg (by exact full)]; rfl

/-- Settles O12: the frame reaches its disposal, and there the CRC, then the kind, then the queue give the case. -/
theorem framesReceived : Obligations.FramesReceived := by
  intro s kind seq crcLow crcHigh body hh hr hb l given
  have hunting : s.hunting = s.setLink l := by
    change s.setLink { s.link with receiver := .hunt, gapTimer := none } = _
    rw [← hr]
  rw [feed_frame hh hr kind seq crcLow crcHigh hb]
  by_cases hc : crc (checkedBytes kind seq body) = given <;> rw [checkedBytes_eq] at hc ⊢
  · rw [if_neg (not_not_intro hc)]
    by_cases hk : kind.toNat < 1 ∨ 0x2F < kind.toNat
    · rw [if_pos hk, State.completeFrame_badKind hc (isRequestKind_eq_false hk), hunting]
      rfl
    · rw [if_neg hk, State.completeFrame_good hc (isRequestKind_eq_true (by omega) (by omega)), hunting,
        State.offerFrame_eq]
      rfl
  · rw [if_pos hc, State.completeFrame_badCrc hc, hunting]
    rfl

end Sys2Proof.Machine
end

section
/-! PROOF. The request queue (sections 9.4, 9.5 and 10.5): the command that a frame is, a frame that must wait, and the
head frame taken in a period. -/

namespace Sys2Proof.Machine

/-- The command of a frame of any kind hands the frame in, to be executed by the handler of its kind (R164, R168). -/
theorem exec_commandOfFrame (kind seq : Byte) (body : List Byte) (s : State) :
    exec (commandOfFrame kind seq body) s = .next (requestStep (handlerOf kind) ⟨kind, seq, body⟩ s) := by
  cases hk : RequestKind.ofByte kind with
  | none => simp only [commandOfFrame, hk, exec, execUnknown, State.requestFrame]
  | some k =>
    obtain rfl : k.code = kind := by simpa using List.find?_some hk
    simp only [commandOfFrame, handlerOf, hk, exec_command]

/-- Settles O19: the frame is offered to the queue. -/
theorem frameWaitsOrOverruns : Obligations.FrameWaitsOrOverruns := by
  intro s kind seq body h1 h2F hb hh hw
  rw [exec_commandOfFrame, requestStep_waits _ hh (isRequestKind_eq_true h1 h2F) hb hw, State.offerFrame_eq]
  rfl

theorem State.canTake_iff (s : State) :
    s.canTake = true ↔ s.hold = none ∧ s.link.waiting = none ∧ s.link.restartTaken = false := by
  simp [State.canTake, and_assoc]

/-- A frame that stands at the head and can be taken is taken, and does not arrive anew. -/
theorem requestStep_head (h : Handler) {f : Frame} {rest : List Frame} {s : State} (hq : s.link.requests = f :: rest)
    (ht : s.canTake = true) (hk : isRequestKind f.kind = true) (hl : f.body.length ≤ 512) :
    requestStep h f s = s.takeHead h f := by
  obtain ⟨hold, -, -⟩ := s.canTake_iff.mp ht
  have head : s.headIs f = true := by simp [State.headIs, ht, hq]
  have fits : ¬Config.maxBody < f.body.length := hl.not_gt
  simp [requestStep, hold, hk, fits, head]

section Serving

variable {s : State}

theorem State.serveRequest_takes {f : Frame} {rest : List Frame} (hq : s.link.requests = f :: rest)
    (ht : s.canTake = true) : s.serveRequest = s.takeHead (handlerOf f.kind) f := by
  simp [State.serveRequest, hq, ht]

theorem State.serveRequest_empty (hq : s.link.requests = []) : s.serveRequest = s := by
  simp [State.serveRequest, hq]

theorem State.serveRequest_held (ht : s.canTake = false) : s.serveRequest = s := by
  cases hq : s.link.requests with
  | nil => exact State.serveRequest_empty hq
  | cons f rest => simp [State.serveRequest, hq, ht]

end Serving

/-- Settles O20: the period and the command both take the head; with none that can be taken, nothing happens. -/
theorem queuedFrameTaken : Obligations.QueuedFrameTaken := by
  intro s
  refine ⟨fun f rest hq hh hw hr h1 h2F hb => ?_, fun idle => ?_⟩
  · have free : s.canTake = true := s.canTake_iff.mpr ⟨hh, hw, hr⟩
    rw [exec_commandOfFrame, requestStep_head _ hq free (isRequestKind_eq_true h1 h2F) hb,
      State.serveRequest_takes hq free]
  · rcases idle with empty | held
    · exact State.serveRequest_empty empty
    · refine State.serveRequest_held (Bool.eq_false_iff.mpr fun free => ?_)
      obtain ⟨hh, hw, hr⟩ := s.canTake_iff.mp free
      simp [hh, hw, hr] at held

end Sys2Proof.Machine
end

section
/-! PROOF. The transmitter (sections 9.1, 9.5, 8.3 and 8.4): its choice, the frame that it sends bit by bit, and the
frame's end. -/

namespace Sys2Proof.Machine

/-! ### The report that the queue offers (R135, R136) -/

/-- A search finds the oldest report that satisfies its test. -/
theorem findIdx?_eq_some_iff_oldest {l : List Report} {p : Report → Bool} {k : Nat} :
    l.findIdx? p = some k ↔ ∃ r, l[k]? = some r ∧ p r = true ∧ ∀ r' ∈ l.take k, p r' = false := by
  rw [List.findIdx?_eq_some_iff_getElem]
  constructor
  · rintro ⟨hk, found, older⟩
    refine ⟨l[k], List.getElem?_eq_getElem hk, found, fun r' hr' => ?_⟩
    obtain ⟨j, hj, rfl⟩ := List.mem_take_iff_getElem.mp hr'
    exact Bool.eq_false_iff.mpr (older j (by omega))
  · rintro ⟨r, hr, found, older⟩
    obtain ⟨hk, rfl⟩ := List.getElem?_eq_some_iff.mp hr
    refine ⟨hk, found, fun j hj => ?_⟩
    rw [older _ (List.mem_take_iff_getElem.mpr ⟨j, by omega, rfl⟩)]
    exact Bool.false_ne_true

section Offered

variable {q : ReportQueue} {k : Nat} {r : Report}

theorem ReportQueue.Offers.offered (ho : q.Offers k r) : q.offered = some k := by
  obtain ⟨flowing, at_k, ⟨sent, resend, older⟩ | ⟨unmarked, window, unsent, older⟩⟩ := ho
  · have marked : q.reports.findIdx? (fun r => r.sent && r.resend) = some k :=
      findIdx?_eq_some_iff_oldest.mpr ⟨r, at_k, by simp [sent, resend], fun r' hr' => by simpa using older r' hr'⟩
    simp only [ReportQueue.offered, flowing, marked]
  · have no_mark : q.reports.findIdx? (fun r => r.sent && r.resend) = none :=
      List.findIdx?_eq_none_iff.mpr fun r' hr' => by simpa using unmarked r' hr'
    have first_unsent : q.reports.findIdx? (fun r => !r.sent) = some k :=
      findIdx?_eq_some_iff_oldest.mpr ⟨r, at_k, by simp [unsent], fun r' hr' => by simpa using older r' hr'⟩
    simp only [ReportQueue.offered, flowing, no_mark, first_unsent]
    exact if_pos window

theorem ReportQueue.offers_of_offered (ho : q.offered = some k) : ∃ r, q.Offers k r := by
  unfold ReportQueue.offered at ho
  split at ho
  · cases ho
  · next flowing =>
    split at ho
    · next marked =>
      rw [ho] at marked
      obtain ⟨r, at_k, found, older⟩ := findIdx?_eq_some_iff_oldest.mp marked
      exact ⟨r, flowing, at_k, .inl (by simpa [and_assoc] using And.intro found older)⟩
    · next no_mark =>
      have unmarked := List.findIdx?_eq_none_iff.mp no_mark
      split at ho
      · next j first_unsent =>
        split at ho
        · next window =>
          obtain rfl := Option.some_injective _ ho
          obtain ⟨r, at_k, unsent, older⟩ := findIdx?_eq_some_iff_oldest.mp first_unsent
          exact ⟨r, flowing, at_k, .inr ⟨by simpa using unmarked, window, by simpa using unsent, by simpa using older⟩⟩
        · cases ho
      · cases ho

/-- The queue with the report at a place taken, written out (R136). -/
theorem ReportQueue.take_eq (at_k : q.reports[k]? = some r) :
    q.take k =
      { q with
        reports := q.reports.set k { r with sent := true, resend := false, onLine := true }
        timer := if k = 0 then none else q.timer } := by
  rw [ReportQueue.take, List.modify_eq_set_getElem?, at_k]
  rfl

end Offered

/-! ### The transmitter's choice (R161) -/

section Choice

variable {s : State}

theorem State.transmitChoice_busy (hb : s.hold ≠ none ∨ s.link.tx ≠ none) : s.transmitChoice = s := by
  refine if_pos ?_
  rwa [Bool.or_eq_true, Option.isSome_iff_ne_none, Option.isSome_iff_ne_none]

variable (hh : s.hold = none) (ht : s.link.tx = none)
include hh ht

theorem State.transmitChoice_answer {a : Answer} (hw : s.link.waiting = some a) :
    s.transmitChoice = s.setLink { s.link with waiting := none, tx := some ⟨.answer a, 0⟩ } := by
  simp [State.transmitChoice, hh, ht, hw]

variable (hw : s.link.waiting = none)
include hw

theorem State.transmitChoice_report {k : Nat} {r : Report} (ho : s.reports.Offers k r) :
    s.transmitChoice =
      (s.setReports (s.reports.take k)).setLink { s.link with tx := some ⟨.report r.seq r.content, 0⟩ } := by
  obtain ⟨-, at_k, -⟩ := id ho
  simp [State.transmitChoice, hh, ht, hw, ho.offered, at_k]

theorem State.transmitChoice_nothing (ho : ∀ k r, ¬s.reports.Offers k r) : s.transmitChoice = s := by
  have no_offer : s.reports.offered = none := Option.eq_none_iff_forall_ne_some.mpr fun k hk =>
    (ReportQueue.offers_of_offered hk).elim (ho k)
  simp [State.transmitChoice, hh, ht, hw, no_offer]

end Choice

/-- Settles O23: busy; IDLE with an answer waiting, with a report offered, with nothing. -/
theorem transmitterChoice : Obligations.TransmitterChoice := by
  intro s
  refine ⟨State.transmitChoice_busy, fun hh ht => ⟨fun a => State.transmitChoice_answer hh ht, fun hw =>
    ⟨fun k r ho => ?_, State.transmitChoice_nothing hh ht hw⟩⟩⟩
  obtain ⟨-, at_k, -⟩ := id ho
  rw [State.transmitChoice_report hh ht hw ho, ReportQueue.take_eq at_k]
  rfl

/-! ### The end of a frame (R137, R159, R162, R176) -/

theorem ReportQueue.frameEnded_eq (q : ReportQueue) :
    q.frameEnded =
      { q with
        reports := q.reports.map fun r => { r with onLine := false }
        timer :=
          if q.state = .flowing ∧ ∃ r ∈ q.reports.head?, r.onLine = true then some (q.timeout + 1) else q.timer } := by
  unfold ReportQueue.frameEnded
  cases hq : q.reports <;> cases hs : q.state <;> simp [startTimer]

theorem Link.restartFrame_answer_iff (l : Link) (a : Answer) :
    l.restartFrame (.answer a) = true ↔ l.restartTaken = true ∧ a.kind = 0x83 ∧ a.status = .ok := by
  change (l.restartTaken && a.kind == 0x83 && decide (a.status = .ok)) = true ↔ _
  simp [and_assoc]

section Ends

variable {s : State} {f : TxFrame} (ht : s.link.tx = some f)
include ht

theorem State.frameEnds_restart (hr : s.link.restartFrame f.item = true) : s.frameEnds = s.beginReset .restart := by
  simp [State.frameEnds, ht, hr]

theorem State.frameEnds_answer {a : Answer} (hi : f.item = .answer a) (hr : ¬s.link.restartFrame (.answer a) = true) :
    s.frameEnds = (s.setLink { s.link with tx := none }).transmitChoice := by
  simp [State.frameEnds, ht, hi, hr]

theorem State.frameEnds_report {n : Byte} {content : ReportContent} (hi : f.item = .report n content) :
    s.frameEnds =
      ((s.setLink { s.link with tx := none }).setReports s.reports.frameEnded).transmitChoice := by
  simp [State.frameEnds, ht, hi, Link.restartFrame]

/-- The end does not look at how long the frame has run. -/
theorem State.frameEnds_elapsed (n : Nat) :
    (s.setLink { s.link with tx := some { f with elapsed := n } }).frameEnds = s.frameEnds := by
  simp only [State.frameEnds, ht]
  rfl

end Ends

/-- Settles O25: an answer that is not an executed RESTART's, a report, the answer that is. -/
theorem frameEnds : Obligations.FrameEnds := by
  intro s f ht
  refine ⟨fun a hi hr => ?_, fun n content hi => ?_, fun a hi taken kind ok => ?_⟩
  · exact congrArg _ (State.frameEnds_answer ht hi fun h => hr ((Link.restartFrame_answer_iff _ _).mp h))
  · change Host.Outcome.next s.frameEnds = _
    rw [State.frameEnds_report ht hi, ReportQueue.frameEnded_eq]
    rfl
  · refine congrArg _ (State.frameEnds_restart ht ?_)
    rw [hi, Link.restartFrame_answer_iff]
    exact ⟨taken, kind, ok⟩

/-! ### A frame on TX (R149, R159) -/

section Sending

variable {s : State} {f : TxFrame} (ht : s.link.tx = some f)
include ht

theorem State.txPeriod_counts (hn : f.elapsed + 1 < 10 * s.link.rate.bitPeriod * f.item.bytes.length) :
    s.txPeriod = s.setLink { s.link with tx := some { f with elapsed := f.elapsed + 1 } } := by
  have inside : ¬f.item.periods s.link.rate ≤ f.elapsed + 1 := by
    rw [TxItem.periods, Nat.mul_assoc, Nat.mul_comm]
    exact hn.not_ge
  simp only [State.txPeriod, ht, if_neg inside]

theorem State.txPeriod_ends (hn : f.elapsed + 1 = 10 * s.link.rate.bitPeriod * f.item.bytes.length) :
    s.txPeriod = s.frameEnds := by
  have complete : f.item.periods s.link.rate ≤ f.elapsed + 1 := by
    rw [TxItem.periods, Nat.mul_assoc, Nat.mul_comm]
    exact hn.ge
  simp only [State.txPeriod, ht, if_pos complete]

theorem State.txPeriod_iterate (n : Nat) (hn : f.elapsed + n < 10 * s.link.rate.bitPeriod * f.item.bytes.length) :
    State.txPeriod^[n] s = s.setLink { s.link with tx := some { f with elapsed := f.elapsed + n } } := by
  induction n with
  | zero =>
    rw [Nat.add_zero, ← ht]
    rfl
  | succ n ih =>
    rw [Function.iterate_succ_apply', ih (by omega), State.txPeriod_counts rfl hn]
    rfl

/-- The period that completes the last bit ends the frame. -/
theorem State.txPeriod_iterate_ends (n : Nat) (h1 : 1 ≤ n)
    (hn : f.elapsed + n = 10 * s.link.rate.bitPeriod * f.item.bytes.length) :
    State.txPeriod^[n] s = s.frameEnds := by
  obtain ⟨m, rfl⟩ := Nat.exists_eq_add_of_le' h1
  rw [Function.iterate_succ_apply', State.txPeriod_iterate ht m (by omega), State.txPeriod_ends rfl hn,
    State.frameEnds_elapsed ht]

end Sending

/-- The ten bits of a character by their places: start bit low, data bits least significant first, stop bit high. -/
theorem characterBits_getElem? (b : Byte) {j : Nat} (hj : j < 10) :
    (characterBits b)[j]? = some (if j = 0 then false else if j = 9 then true else b.getLsbD (j - 1)) := by
  interval_cases j <;> rfl

/-- The bits of a frame, ten to a byte. -/
theorem flatMap_characterBits_getElem? {bytes : List Byte} {k j : Nat} {b : Byte} (hb : bytes[k]? = some b)
    (hj : j < 10) : (bytes.flatMap characterBits)[10 * k + j]? = (characterBits b)[j]? := by
  have ten : ∀ c : Byte, (characterBits c).length = 10 := fun _ => rfl
  induction bytes generalizing k with
  | nil => cases hb
  | cons c bytes ih =>
    rw [List.flatMap_cons]
    cases k with
    | zero =>
      obtain rfl : c = b := by simpa using hb
      rw [List.getElem?_append_left (by rw [ten]; omega), Nat.mul_zero, Nat.zero_add]
    | succ k =>
      have later : 10 * (k + 1) + j - 10 = 10 * k + j := by omega
      rw [List.getElem?_append_right (by rw [ten]; omega), ten, later]
      exact ih (by simpa using hb)

/-- Settles O24: the periods by induction, the level by the place of the bit that they reach. -/
theorem frameRunsOnTx : Obligations.FrameRunsOnTx := by
  intro s
  refine ⟨fun f ht => ⟨State.txPeriod_iterate ht, fun n h1 hn => ?_, fun k j b hb hj reached => ?_⟩,
    fun ht => ⟨?_, ?_⟩⟩
  · rw [State.txPeriod_iterate_ends ht n h1 hn]
    rfl
  · have level := (flatMap_characterBits_getElem? hb hj).trans (characterBits_getElem? b hj)
    simp only [Link.txLevel, ht, show f.elapsed / s.link.rate.bitPeriod = 10 * k + j from reached, level]
  · simp only [Link.txLevel, ht]
  · simp only [State.txPeriod, ht]

end Sys2Proof.Machine
end

section
/-! PROOF. RX (section 9.1): the sampling of a character in periods of the base clock, and the sampler at rest. -/

namespace Sys2Proof.Machine

/-! ### The byte of eight data bits (R149) -/

/-- The number whose binary digits are the bits of a list, the first of them lowest. -/
theorem testBit_foldr_bits (bits : List Bool) (i : Nat) :
    (bits.foldr (fun (b : Bool) n => n * 2 + (if b then 1 else 0)) 0).testBit i = bits[i]?.getD false := by
  induction bits generalizing i with
  | nil => simp
  | cons b bits ih =>
    have digit : ∀ n : Nat, n * 2 + (if b then 1 else 0) = n.bit b := fun n => by
      cases b <;> simp [Nat.bit, Nat.mul_comm]
    rw [List.foldr_cons, digit]
    cases i with
    | zero => simp
    | succ i => rw [Nat.testBit_bit_succ, ih, List.getElem?_cons_succ]

/-- The data bits of a byte in the order in which they are sent. -/
def dataBits (b : Byte) : List Bool := (List.range 8).map b.getLsbD

@[simp] theorem length_dataBits (b : Byte) : (dataBits b).length = 8 := by simp [dataBits]

theorem dataBits_getElem? (b : Byte) {k : Nat} (hk : k < 8) : (dataBits b)[k]? = some (b.getLsbD k) := by
  simp [dataBits, hk]

theorem byteOfBits_dataBits (b : Byte) : byteOfBits (dataBits b) = b := by
  refine BitVec.eq_of_getLsbD_eq fun i hi => ?_
  rw [byteOfBits, BitVec.getLsbD_ofNat, testBit_foldr_bits, dataBits_getElem? b hi]
  simp [hi]

/-! ### One period of the sampler -/

/-- The state with RX sampled at a level and the sampler moved on. -/
def State.sampled (s : State) (level : Bool) (x : RxSampler) : State :=
  s.setLink { s.link with rxRaw := level, rxSampler := x }

@[simp] theorem State.sampled_sampled (s : State) (level level' : Bool) (x x' : RxSampler) :
    (s.sampled level x).sampled level' x' = s.sampled level' x' := rfl

/-- One period of RX with the pin at a level. -/
def State.rxAt (s : State) (level : Bool) : State := (s.setLink { s.link with rxRaw := level }).rxPeriod

theorem rxRun_singleton (level : Bool) (s : State) : rxRun [level] s = s.rxAt level := rfl

theorem rxRun_cons (level : Bool) (levels : List Bool) (s : State) :
    rxRun (level :: levels) s = rxRun levels (s.rxAt level) := rfl

theorem rxRun_append (front back : List Bool) (s : State) : rxRun (front ++ back) s = rxRun back (rxRun front s) :=
  List.foldl_append

section Rest

variable {s : State} {level : Bool}

theorem State.rxAt_fall (hx : s.link.rxSampler = .idle true) : s.rxAt false = s.sampled false (.character 0 []) := by
  simp [State.rxAt, State.rxPeriod, hx, State.sampled, State.setLink]

theorem State.rxAt_rests {prior : Bool} (hx : s.link.rxSampler = .idle prior) (hl : prior = false ∨ level = true) :
    s.rxAt level = s.sampled level (.idle level) := by
  have no_fall : (prior && !level) = false := by rcases hl with rfl | rfl <;> simp
  simp [State.rxAt, State.rxPeriod, hx, no_fall, State.sampled, State.setLink]

theorem State.rxAt_recovers (hx : s.link.rxSampler = .recover) :
    s.rxAt level = s.sampled level (if level then .idle true else .recover) := by
  cases level <;> simp [State.rxAt, State.rxPeriod, hx, State.sampled, State.setLink]

end Rest

section Inside

variable {s : State} {level : Bool} {elapsed : Nat} {bits : List Bool}
  (hx : s.link.rxSampler = .character elapsed bits)
include hx

/-- The middle of the next data bit. -/
theorem State.rxAt_takes (hb : bits.length < 8)
    (he : elapsed + 1 = (bits.length + 1) * s.link.rate.bitPeriod + s.link.rate.bitPeriod / 2) :
    s.rxAt level = s.sampled level (.character (elapsed + 1) (bits ++ [level])) := by
  simp only [State.rxAt, State.rxPeriod, State.setLink_link, hx, if_pos hb, if_pos he]
  rfl

theorem State.rxAt_waits_data (hb : bits.length < 8)
    (he : elapsed + 1 ≠ (bits.length + 1) * s.link.rate.bitPeriod + s.link.rate.bitPeriod / 2) :
    s.rxAt level = s.sampled level (.character (elapsed + 1) bits) := by
  simp only [State.rxAt, State.rxPeriod, State.setLink_link, hx, if_pos hb, if_neg he]
  rfl

variable (hb : ¬bits.length < 8)
include hb

theorem State.rxAt_waits_stop (he : elapsed + 1 < 9 * s.link.rate.bitPeriod + s.link.rate.bitPeriod / 2) :
    s.rxAt level = s.sampled level (.character (elapsed + 1) bits) := by
  simp only [State.rxAt, State.rxPeriod, State.setLink_link, hx, if_neg hb, if_pos he]
  rfl

/-- The middle of the stop bit: the character arrives. -/
theorem State.rxAt_arrives (he : ¬elapsed + 1 < 9 * s.link.rate.bitPeriod + s.link.rate.bitPeriod / 2) :
    s.rxAt level =
      (s.sampled level (if level then .idle true else .recover)).receive (byteOfBits bits) level := by
  simp only [State.rxAt, State.rxPeriod, State.setLink_link, hx, if_neg hb, if_neg he]
  rfl

end Inside

/-! ### A run of periods inside a character -/

/-- The number of data bits whose middles the elapsed periods have reached. -/
def middles (bit elapsed : Nat) : Nat := (elapsed - bit / 2) / bit

/-- A period reaches at most one middle, that of the next data bit. -/
theorem middles_succ {bit : Nat} (hbit : 0 < bit) (n : Nat) :
    middles bit (n + 1) =
      if n + 1 = (middles bit n + 1) * bit + bit / 2 then middles bit n + 1 else middles bit n := by
  have lower : middles bit n * bit ≤ n - bit / 2 := Nat.div_mul_le_self _ _
  have upper : n - bit / 2 < (middles bit n + 1) * bit := by
    rw [Nat.succ_mul]
    exact Nat.lt_div_mul_add hbit
  split
  · refine Nat.div_eq_of_lt_le ?_ ?_
    · omega
    · rw [Nat.succ_mul]
      omega
  · refine Nat.div_eq_of_lt_le ?_ ?_ <;> omega

theorem middles_zero (bit : Nat) : middles bit 0 = 0 := by simp [middles]

theorem middles_last {bit : Nat} (hbit : 0 < bit) : middles bit (9 * bit + bit / 2 - 1) = 8 :=
  Nat.div_eq_of_lt_le (by omega) (by omega)

theorem bitPeriod_pos (r : LinkRate) : 0 < r.bitPeriod := by cases r <;> decide

/-- The sampler inside the character of a byte, before the middle of its stop bit: it holds the data bits whose middles
have been reached. -/
def sampling (bit : Nat) (b : Byte) (elapsed : Nat) : RxSampler :=
  .character elapsed ((dataBits b).take (middles bit elapsed))

theorem length_take_dataBits (b : Byte) (m : Nat) : ((dataBits b).take m).length = min m 8 := by simp

/-- A period takes the level at a middle for the next data bit, and passes over any other level. -/
theorem State.rxAt_sampling {s : State} {level : Bool} {b : Byte} {n : Nat}
    (hx : s.link.rxSampler = sampling s.link.rate.bitPeriod b n)
    (hn : n + 1 < 9 * s.link.rate.bitPeriod + s.link.rate.bitPeriod / 2)
    (hl : ∀ k < 8, n + 1 = (k + 1) * s.link.rate.bitPeriod + s.link.rate.bitPeriod / 2 → level = b.getLsbD k) :
    s.rxAt level = s.sampled level (sampling s.link.rate.bitPeriod b (n + 1)) := by
  rw [sampling, middles_succ (bitPeriod_pos _)]
  by_cases more : middles s.link.rate.bitPeriod n < 8
  · have held := (length_take_dataBits b _).trans (min_eq_left more.le)
    split
    · next middle =>
      rw [State.rxAt_takes hx (by rwa [held]) (by rwa [held]), List.take_add_one, dataBits_getElem? b more,
        hl _ more middle]
      rfl
    · next between => rw [State.rxAt_waits_data hx (by rwa [held]) (by rwa [held])]
  · have held := (length_take_dataBits b (middles s.link.rate.bitPeriod n)).trans (min_eq_right (not_lt.mp more))
    have all : ∀ m, 8 ≤ m → (dataBits b).take m = dataBits b := fun m hm => List.take_of_length_le (by simpa)
    rw [State.rxAt_waits_stop hx (by rw [held]; decide) hn, all _ (not_lt.mp more), all]
    split <;> omega

section Character

variable {s : State} {levels : List Bool} {b : Byte} (hx : s.link.rxSampler = .character 0 [])
  (hlen : levels.length = 9 * s.link.rate.bitPeriod + s.link.rate.bitPeriod / 2)
  (hdata : ∀ k : Fin 8,
    levels[(k.val + 1) * s.link.rate.bitPeriod + s.link.rate.bitPeriod / 2 - 1]? = some (b.getLsbD k.val))
include hx hlen hdata

/-- Before the middle of the stop bit, whatever the levels between the middles. -/
theorem rxRun_take (n : Nat) (hn : n < levels.length) :
    ∃ level, rxRun (levels.take n) s = s.sampled level (sampling s.link.rate.bitPeriod b n) := by
  induction n with
  | zero =>
    refine ⟨s.link.rxRaw, ?_⟩
    rw [sampling, middles_zero, List.take_zero, List.take_zero, ← hx]
    rfl
  | succ n ih =>
    obtain ⟨before, run⟩ := ih (by omega)
    refine ⟨levels[n], ?_⟩
    rw [List.take_succ_eq_append_getElem (by omega), rxRun_append, run, rxRun_singleton]
    refine State.rxAt_sampling (s := s.sampled before _) rfl (hlen ▸ hn) fun k hk middle => ?_
    have data : levels[n + 1 - 1]? = some (b.getLsbD k) := middle ▸ hdata ⟨k, hk⟩
    rw [Nat.add_sub_cancel, List.getElem?_eq_getElem (by omega)] at data
    exact Option.some_injective _ data

/-- The middle of the stop bit ends the run, and the character arrives. -/
theorem rxRun_character {stop : Bool} (hstop : levels.getLast? = some stop) :
    rxRun levels s = (s.sampled stop (if stop then .idle true else .recover)).receive b stop := by
  have hbit := bitPeriod_pos s.link.rate
  obtain ⟨front, rfl⟩ : ∃ front, levels = front ++ [stop] := List.getLast?_eq_some_iff.mp hstop
  have last : front.length = 9 * s.link.rate.bitPeriod + s.link.rate.bitPeriod / 2 - 1 := by
    rw [List.length_append, List.length_singleton] at hlen
    omega
  have due : ¬front.length + 1 < 9 * s.link.rate.bitPeriod + s.link.rate.bitPeriod / 2 := by omega
  have all : sampling s.link.rate.bitPeriod b front.length = .character front.length (dataBits b) := by
    rw [sampling, last, middles_last hbit, List.take_of_length_le (by simp)]
  obtain ⟨level, run⟩ := rxRun_take hx hlen hdata front.length (by simp)
  rw [List.take_left, all] at run
  rw [rxRun_append, run, rxRun_singleton, State.rxAt_arrives rfl (by simp) (by exact due), byteOfBits_dataBits,
    State.sampled_sampled]

end Character

/-- Settles O26: the fall, then the run of the character; the sampler at rest and after a bad stop bit. -/
theorem characterSampled : Obligations.CharacterSampled := by
  refine ⟨fun s levels b stop hx hlen hdata hstop => ?_, fun s level => ⟨fun prior hx hl => ?_, fun hx => ?_⟩⟩
  · rw [rxRun_cons, State.rxAt_fall hx]
    exact rxRun_character (s := s.sampled false (.character 0 [])) rfl hlen hdata hstop
  · exact State.rxAt_rests hx hl
  · exact State.rxAt_recovers hx

end Sys2Proof.Machine
end

section
/-! PROOF. Requests that are refused for their length or their kind (sections 10.2 and 11.3), and frames answered from the
cache (section 10.1). -/

namespace Sys2Proof.Machine

/-! ### The readers: a body of another length (R169, Table 11-3) -/

section Lengths

variable {body : List Byte}

theorem readStatus_length (h : body.length ≠ 1) : readStatus body = .error .format := by
  unfold readStatus
  split
  · exact absurd rfl h
  · rfl

theorem readAck_length (h : body.length ≠ 1) : readAck body = .error .format := by
  unfold readAck
  split
  · exact absurd rfl h
  · rfl

theorem readLinkSetup_length (h : body.length ≠ 4) : readLinkSetup body = .error .format := by
  unfold readLinkSetup
  split
  · exact absurd rfl h
  · rfl

theorem readIndex_length (h : body.length ≠ 1) : readIndex body = .error .format := by
  unfold readIndex
  split
  · exact absurd rfl h
  · rfl

theorem readCancel_length (h2 : body.length ≠ 2) (h3 : body.length ≠ 3) : readCancel body = .error .format := by
  unfold readCancel
  split
  · exact absurd rfl h2
  · exact absurd rfl h3
  · rfl

theorem readLineSetup_length (h : body.length ≠ 3) : readLineSetup body = .error .format := by
  unfold readLineSetup
  split
  · exact absurd rfl h
  · rfl

theorem readStopSetup_length (h : body.length ≠ 2) : readStopSetup body = .error .format := by
  unfold readStopSetup
  split
  · exact absurd rfl h
  · rfl

theorem readChannelSetup_unfit (h : body.length ≠ 11) : readChannelSetup body = .error .format := by
  unfold readChannelSetup
  split
  · exact absurd rfl h
  · rfl

theorem readChannelQuery_length (h : body.length ≠ 2) : readChannelQuery body = .error .format := by
  unfold readChannelQuery
  split
  · exact absurd rfl h
  · rfl

theorem readFlush_length (h : body.length ≠ 1) : readFlush body = .error .format := by
  unfold readFlush
  split
  · exact absurd rfl h
  · rfl

/-- A PLACE body has its seven fixed bytes, and at most 27 behind them (Table 11-4). -/
theorem PlaceFields.length_body (f : PlaceFields) : 7 ≤ f.body.length ∧ f.body.length ≤ 34 := by
  have size := f.length_tail
  have field : ∀ b n, fieldSize b n ≤ n := fun b n => by cases b <;> simp [fieldSize]
  have sum : placeTailSize f.presence ≤ 4 + 4 + 4 + 6 + 2 + 1 + 4 + 2 := by
    unfold placeTailSize
    gcongr <;> exact field _ _
  simp only [PlaceFields.body, bytes16, List.length_append, List.length_cons, List.length_nil]
  omega

theorem readPlace_length (h : ¬(7 ≤ body.length ∧ body.length ≤ 34)) : readPlace body = .error .format := by
  refine readPlace_format fun f hf => ?_
  obtain ⟨-, rfl⟩ := (readPlaceFields_iff _ _).mp hf
  exact absurd f.length_body h

end Lengths

/-! ### The handlers: a body that its reader refuses -/

section Refusals

variable {s : State} {body : List Byte} {st : Status}

theorem statusRequest_error (hr : readStatus body = .error st) : statusRequest body s = refuse st s := by
  simp only [statusRequest, hr]

theorem ackRequest_error (hr : readAck body = .error st) : ackRequest body s = refuse st s := by
  simp only [ackRequest, hr]

variable (hb : body ≠ [])
include hb

theorem helloRequest_error : helloRequest body s = refuse .format s := by
  simp only [helloRequest, readEmpty_ne hb]

theorem restartRequest_error : restartRequest body s = refuse .format s := by
  simp only [restartRequest, readEmpty_ne hb]

theorem linkResetRequest_error : linkResetRequest body s = refuse .format s := by
  simp only [linkResetRequest, readEmpty_ne hb]

theorem timeReadRequest_error : timeReadRequest body s = refuse .format s := by
  simp only [timeReadRequest, readEmpty_ne hb]

theorem linesReadRequest_error : linesReadRequest body s = refuse .format s := by
  simp only [linesReadRequest, readEmpty_ne hb]

theorem haltRequest_error : haltRequest body s = refuse .format s := by
  simp only [haltRequest, readEmpty_ne hb]

theorem resumeRequest_error : resumeRequest body s = refuse .format s := by
  simp only [resumeRequest, readEmpty_ne hb]

end Refusals

/-- Each request refuses a body of a length its kind does not allow, whatever the state (R169). -/
theorem handlerFor_unfit {k : RequestKind} {body : List Byte} (h : k.allows body.length = false) (s : State) :
    handlerFor k body s = refuse .format s := by
  have other : ∀ n, k.allows n = true → body.length ≠ n := by
    rintro n allowed rfl
    exact Bool.false_ne_true (h.symm.trans allowed)
  have filled : k.allows 0 = true → body ≠ [] := fun allowed empty => other 0 allowed (by rw [empty]; rfl)
  cases k with
  | hello => exact helloRequest_error (filled rfl)
  | status => exact statusRequest_error (readStatus_length (other 1 rfl))
  | restart => exact restartRequest_error (filled rfl)
  | ack => exact ackRequest_error (readAck_length (other 1 rfl))
  | reportsOn => exact reportsOnRequest_error s (filled rfl)
  | linkSetup => exact linkSetupRequest_error (readLinkSetup_length (other 4 rfl))
  | linkReset => exact linkResetRequest_error (filled rfl)
  | timeSetup => exact timeSetupRequest_error (readTimeSetup_length (other 3 rfl))
  | timeSet => exact timeSetRequest_error (readTimeSet_length (other 4 rfl))
  | timeRun => exact timeRunRequest_error (filled rfl)
  | timeStop => exact timeStopRequest_error (filled rfl)
  | timeRead => exact timeReadRequest_error (filled rfl)
  | place => exact placeRequest_error (readPlace_length (by simpa [RequestKind.allows] using h))
  | entryQuery => exact entryQueryRequest_error (readIndex_length (other 1 rfl))
  | entryList => exact entryListRequest_error (readIndex_length (other 1 rfl))
  | cancel => exact cancelRequest_error (readCancel_length (other 2 rfl) (other 3 rfl))
  | timelineClear => exact timelineClearRequest_error (filled rfl)
  | lineSetup => exact lineSetupRequest_error (readLineSetup_length (other 3 rfl))
  | lineWrite => exact lineWriteRequest_error (readLineWrite_length (other 4 rfl))
  | linesRead => exact linesReadRequest_error (filled rfl)
  | halt => exact haltRequest_error (filled rfl)
  | resume => exact resumeRequest_error (filled rfl)
  | stopSetup => exact stopSetupRequest_error (readStopSetup_length (other 2 rfl))
  | channelSetup => exact channelSetupRequest_error (readChannelSetup_unfit (other 11 rfl))
  | channelQuery => exact channelQueryRequest_error (readChannelQuery_length (other 2 rfl))
  | flush => exact flushRequest_error (readFlush_length (other 1 rfl))

/-- A kind that names no request is dealt with by the handler that answers UNKNOWN (R168). -/
theorem handlerOf_unnamed {kind : Byte} (h : ∀ k : RequestKind, k.code ≠ kind) : handlerOf kind = unknownRequest := by
  have unnamed : RequestKind.ofByte kind = none := List.find?_eq_none.mpr fun k _ => by simpa using h k
  simp only [handlerOf, unnamed]

/-- Settles O17: the handler of the kind refuses, with FORMAT or with UNKNOWN. -/
theorem unfitRequestsRefused : Obligations.UnfitRequestsRefused := by
  refine ⟨fun s k seq body hl hu hx => exec_refused hx hl (handlerFor_unfit hu _), ?_⟩
  intro s kind seq body h1 h2F hk hl hx
  have refused := requestStep_refused (handlerOf kind) hx (isRequestKind_eq_true h1 h2F) hl
    (st := .unknown) (by rw [handlerOf_unnamed hk]; rfl)
  exact congrArg Host.Outcome.next refused

/-! ### A frame with a cached number (R164, R165) -/

/-- The numbers of the cached answers being distinct, each is the one found for its number. -/
theorem Link.cached_of_mem {l : Link} (hd : (l.cache.map Answer.seq).Nodup) {a : Answer} (ha : a ∈ l.cache) :
    l.cached a.seq = some a := by
  cases hc : l.cached a.seq with
  | none => exact absurd rfl (Link.cached_eq_none_iff.mp hc a ha)
  | some b =>
    have same : b.seq = a.seq := by simpa using List.find?_some hc
    rw [List.inj_on_of_nodup_map hd (List.mem_of_find?_eq_some hc) ha same]

/-- A frame that finds the queue empty, or itself at the head, is taken at once when a frame can be taken (R158, R160). -/
theorem requestStep_takes (h : Handler) {f : Frame} {s : State} (ht : s.canTake = true)
    (hq : s.link.requests = [] ∨ s.link.requests.head? = some f) (hk : isRequestKind f.kind = true)
    (hl : f.body.length ≤ 512) : requestStep h f s = (s.dequeued.executeFrame h f).transmitChoice := by
  rcases hq with empty | head
  · obtain ⟨hold, -, -⟩ := s.canTake_iff.mp ht
    have fits : ¬Config.maxBody < f.body.length := hl.not_gt
    have arrives : s.offerFrame f = s.setLink { s.link with requests := [f] } := by
      simp [State.offerFrame, empty, Config.requestPlaces]
    have notYet : s.headIs f = false := by simp [State.headIs, empty]
    have taken : (s.offerFrame f).headIs f = true := by
      rw [arrives, State.headIs, Bool.and_eq_true]
      exact ⟨ht, by simp⟩
    have dequeued : (s.offerFrame f).dequeued = s.dequeued := by
      rw [arrives]
      simp [State.dequeued, State.setLink, empty]
    have taking : requestStep h f s = ((s.offerFrame f).dequeued.executeFrame h f).transmitChoice := by
      simp [requestStep, hold, hk, fits, notYet, taken, State.takeHead, State.dequeued]
    rw [taking, dequeued]
  · obtain ⟨rest, hr⟩ := List.head?_eq_some_iff.mp head
    exact requestStep_head h hr ht hk hl

/-- A frame with a cached number leaves the queue unexecuted, and its cached answer is sent again. -/
theorem requestStep_resends (h : Handler) {f : Frame} {s : State} {a : Answer} (ht : s.canTake = true)
    (hq : s.link.requests = [] ∨ s.link.requests.head? = some f) (hk : isRequestKind f.kind = true)
    (hl : f.body.length ≤ 512) (hc : s.link.cached f.seq = some a) :
    requestStep h f s = { s with link := { s.link with requests := s.link.requests.tail }.sending a } := by
  obtain ⟨hold, -, -⟩ := s.canTake_iff.mp ht
  have found : s.dequeued.link.cached f.seq = some a := hc
  have resent : s.dequeued.executeFrame h f = s.dequeued.setLink (s.dequeued.link.await a) := by
    simp only [State.executeFrame, found]
  have sent := State.transmitChoice_waiting (s := s.dequeued.setLink (s.dequeued.link.await a)) hold rfl
  rw [requestStep_takes h ht hq hk hl, resent, sent]
  rfl

/-- Settles O18: whichever handler the command names, the frame is answered from the cache. -/
theorem cachedAnswerSentAgain : Obligations.CachedAnswerSentAgain := by
  rintro s kind seq body a h1 h2F hl ⟨-, -, distinct⟩ ha rfl hh hr hw hq
  have resends : ∀ h : Handler, requestStep h ⟨kind, a.seq, body⟩ s = _ := fun h =>
    requestStep_resends h (s.canTake_iff.mpr ⟨hh, hw, hr⟩) hq (isRequestKind_eq_true h1 h2F) hl
      (Link.cached_of_mem distinct ha)
  exact ⟨congrArg Host.Outcome.next (resends _), by rw [exec_commandOfFrame, resends]⟩

end Sys2Proof.Machine
end

section
/-! PROOF. The requests that report (HELLO, TIME-READ, LINES-READ and STATUS: sections 1.5, 4.7, 10.3 and 10.4) and RESTART
(section 10.5). -/

namespace Sys2Proof.Machine

/-! ### What LINES-READ reports (R73) -/

/-- Member n of a group stands at bit n (R180). -/
theorem getLsbD_levelsOf (f : Fin 16 → Bool) (n : Fin 16) : (levelsOf f).getLsbD n.val = f n := by
  simp [levelsOf]

/-- The level that a line's master, or the halt, gives its pin (Table 4-2). -/
theorem OutLine.driven_eq (l : OutLine) (halted : Bool) :
    l.driven halted = if halted then l.safe else if l.mode = .direct then l.direct else l.timed := by
  unfold OutLine.driven
  cases l.mode <;> rfl

/-! ### STATUS (R173, R174) -/

theorem readStatus_ok {flag : Byte} (h : flag.toNat ≤ 1) : readStatus [flag] = .ok (decide (flag = 1)) := by
  have clear : flagOf flag = some (decide (flag = 1)) := levelOf_of_le h
  simp only [readStatus, clear]

theorem readStatus_value {flag : Byte} (h : 1 < flag.toNat) : readStatus [flag] = .error .value := by
  have none_read : flagOf flag = none := levelOf_of_lt h
  simp only [readStatus, none_read]

section Status

variable {s : State} {body : List Byte}

theorem statusRequest_keeps (hr : readStatus body = .ok false) :
    statusRequest body s = accept (.status s.statusView) s := by
  simp [statusRequest, hr]

theorem statusRequest_clears (hr : readStatus body = .ok true) :
    statusRequest body s = accept (.status s.statusView) (s.setLink s.link.clearErrors) := by
  simp [statusRequest, hr]

end Status

/-- A request answered OK by a handler that changes the link beside its request queue: its answer is stored in the link it
left. -/
theorem exec_accepted_in {s t : State} {k : RequestKind} {seq : Byte} {body : List Byte} {fields : AnswerFields} {l : Link}
    (hx : Executes s (k.frame seq body)) (hl : body.length ≤ 512)
    (he : handlerFor k body s.dequeued = accept fields t) (ht : t.link = { l with requests := l.requests.tail })
    (hh : t.hold = s.hold) :
    exec (k.command seq body) s = .next (t.setLink (l.answered (k.okAnswer seq fields))) := by
  obtain ⟨hold, -⟩ := id hx
  rw [exec_command]
  exact congrArg _ (requestStep_answered_in _ hx (isRequestKind_code k) hl he ht (hh.trans hold))

/-- Settles O21: each reader's fields as they stand, and the clear flag of STATUS off, on and out of range. -/
theorem readersReport : Obligations.ReadersReport := by
  refine ⟨fun s seq => ⟨fun hx => ?_, fun hx => ?_, fun hx => ?_⟩, ?_⟩
  · exact exec_accepted (k := .hello) (t := s.dequeued) hx (by simp) rfl rfl rfl
  · exact exec_accepted (k := .timeRead) (t := s.dequeued) hx (by simp) rfl rfl rfl
  · refine ⟨s.linesView, exec_accepted (k := .linesRead) (t := s.dequeued) hx (by simp) rfl rfl rfl, rfl,
      fun c => ?_, fun n => ?_⟩
    · simp only [State.linesView, getLsbD_levelsOf, and_self]
    · simp only [State.linesView, State.drivenLevels, State.drivenLevel, OutLine.driven_eq, State.halted, getLsbD_levelsOf,
        and_self]
  · intro s seq flag hx view l
    have reported : s.dequeued.statusView = view := by
      simp only [State.statusView, ReportQueue.sentCount, List.countP_eq_length_filter]
      rfl
    refine ⟨?_, ?_, fun out => ?_⟩
    · rintro rfl
      have keeps := statusRequest_keeps (s := s.dequeued) (readStatus_ok (flag := 0) (by decide))
      exact exec_accepted (k := .status) (t := s.dequeued) hx (by simp) (reported ▸ keeps) rfl rfl
    · rintro rfl
      have clears := statusRequest_clears (s := s.dequeued) (readStatus_ok (flag := 1) (by decide))
      exact exec_accepted_in (k := .status) (t := s.dequeued.setLink s.dequeued.link.clearErrors)
        (l := s.link.clearErrors) hx (by simp) (reported ▸ clears) rfl rfl
    · exact exec_refused (k := .status) hx (by simp) (statusRequest_error (readStatus_value out))

/-! ### RESTART (R160, R175) -/

theorem restartRequest_accepts (s : State) :
    restartRequest [] s = accept .none (s.setLink { s.link with restartTaken := true }) := rfl

/-- Settles O22: the answer in the link that records the RESTART, and the period's test of the record. -/
theorem restartAnswered : Obligations.RestartAnswered := by
  refine ⟨fun s seq hx => ?_, fun s taken => State.serveRequest_held (by simp [State.canTake, taken])⟩
  exact exec_accepted_in (k := .restart) (t := s.dequeued.setLink { s.dequeued.link with restartTaken := true })
    (l := { s.link with restartTaken := true }) hx (by simp) (restartRequest_accepts s.dequeued) rfl rfl

end Sys2Proof.Machine
end

section
/-! PROOF. The device reset (section 10.6): its beginning, its end, and the end of a RESTART's by itself. -/

namespace Sys2Proof.Machine

/-! ### While the reset holds (R177) -/

theorem State.beginReset_eq (s : State) (cause : ResetCause) : s.beginReset cause = s.heldInReset cause := rfl

theorem State.drivenLevel_heldInReset (s : State) (cause : ResetCause) (n : LineIx) :
    (s.heldInReset cause).drivenLevel n = false := by
  have line : (s.heldInReset cause).line n = OutLine.afterReset := by
    simp [State.line, State.heldInReset, OutLine.afterReset]
  rw [State.drivenLevel, line]
  rfl

theorem exec_resetPin_other {s : State} (h : ∀ r ∈ s.hold, r.cause ≠ .power) :
    exec .resetPin s = .next (s.heldInReset .pin) := by
  cases hold : s.hold with
  | none => simp only [exec, execResetPin, hold, State.beginReset_eq]
  | some r => simp only [exec, execResetPin, hold, if_neg (h r hold), State.beginReset_eq]

theorem exec_resetPin_power {s : State} {r : ResetHold} (hold : s.hold = some r) (hc : r.cause = .power) :
    exec .resetPin s = .next s := by
  simp only [exec, execResetPin, hold, if_pos hc]

/-! ### The end of a device reset (R89, R134, R178) -/

/-- With no entry on the Due List and no line TIMED, the entry into HALTED moves nothing. -/
theorem State.enterHalted_atRest {s : State} (hd : s.dueList = []) (hl : s.lines = Vector.replicate 16 OutLine.afterReset) :
    s.enterHalted = s := by
  have lines : s.lines.map OutLine.forceSafe = s.lines := by
    rw [hl, Vector.map_replicate]
    rfl
  simp only [State.enterHalted, hd, List.foldl_nil, lines]
  exact State.ext_fields rfl rfl hd.symm rfl rfl rfl rfl rfl rfl rfl

/-- The Halt Unit at the end of a device reset: STOP_LINE is in the set, and the halt slot open with it, when the first
sample of STOP is low, the active level after reset (R89). -/
def HaltUnit.afterTest (stop : Bool) : HaltUnit :=
  if stop then HaltUnit.afterReset stop else (HaltUnit.afterReset stop).joined Causes.ofStopLine

theorem HaltUnit.afterTest_eq (stop : Bool) :
    HaltUnit.afterTest stop =
      ⟨⟨false, !stop, false⟩, true, false, stop, none, stop, if stop then none else some ⟨false, true, false⟩⟩ := by
  cases stop <;> rfl

/-- The test of the STOP line under the reset setup (R89). -/
theorem State.afterReset_tested (s : State) (cause : ResetCause) :
    (if (s.afterReset cause).halt.stopIsActive then (s.afterReset cause).addCause Causes.ofStopLine
      else s.afterReset cause) = (s.afterReset cause).setHalt (HaltUnit.afterTest s.halt.stopRaw) := by
  have active : (s.afterReset cause).halt.stopIsActive = !s.halt.stopRaw := by
    simp [HaltUnit.stopIsActive, State.afterReset, HaltUnit.afterReset]
  rw [active]
  cases stop : s.halt.stopRaw with
  | false =>
    have sampled : (s.afterReset cause).halt = HaltUnit.afterReset false := congrArg HaltUnit.afterReset stop
    have running : (s.afterReset cause).halted = false := rfl
    have absent : Causes.ofStopLine.within (s.afterReset cause).halt.causes = false := Causes.within_ofStopLine _
    rw [Bool.not_false, if_pos rfl, State.addCause_running absent running, sampled]
    exact State.enterHalted_atRest rfl rfl
  | true =>
    have sampled : HaltUnit.afterReset true = (s.afterReset cause).halt := (congrArg HaltUnit.afterReset stop).symm
    rw [HaltUnit.afterTest, if_pos rfl, sampled]
    rfl

/-- START stands unsent at the head of the queue (R134). -/
theorem ReportQueue.offers_start (cause : ResetCause) (rate : LinkRate) :
    (ReportQueue.withStart cause rate).Offers 0 ⟨0, .start cause rate, false, false, false⟩ := by
  simp [ReportQueue.Offers, ReportQueue.withStart, ReportQueue.afterReset]

/-- A device reset ends: the blocks at their reset values, STOP tested, START on its way (R178). -/
theorem State.endReset_eq (s : State) (cause : ResetCause) :
    s.endReset cause =
      let rate := LinkRate.ofPins s.link.rate1 s.link.rate0
      { s.afterReset cause with
        halt := HaltUnit.afterTest s.halt.stopRaw
        reports := (ReportQueue.withStart cause rate).take 0
        link := { (s.afterReset cause).link with tx := some ⟨.report 0 (.start cause rate), 0⟩ } } := by
  have choice := State.transmitChoice_report (s := (s.afterReset cause).setHalt (HaltUnit.afterTest s.halt.stopRaw))
    rfl rfl rfl (ReportQueue.offers_start cause (LinkRate.ofPins s.link.rate1 s.link.rate0))
  rw [State.endReset, State.afterReset_tested, choice]
  rfl

theorem State.channel_withPins (s : State) (rate1 rate0 stop : Bool) (inputs : Levels) (c : ChanIx) :
    (s.withPins rate1 rate0 stop inputs).channel c = { s.channel c with raw := inputs.getLsbD c.val } := by
  simp [State.channel, State.withPins]

/-! ### The end of a RESTART's reset (R177) -/

/-- Driving the pins to the levels they have changes nothing. -/
theorem State.withPins_self (s : State) :
    s.withPins s.link.rate1 s.link.rate0 s.halt.stopRaw (levelsOf fun c => (s.channel c).raw) = s := by
  have channels : (Vector.ofFn fun c : ChanIx => s.channel c) = s.channels :=
    Vector.ext fun c hc => by rw [Vector.getElem_ofFn, State.channel]
  simp only [State.withPins, getLsbD_levelsOf, channels]

section Hold

variable {s : State} {h : ResetHold}

theorem exec_resetEnd (hold : s.hold = some h) (rate1 rate0 stop : Bool) (inputs : Levels) :
    exec (.resetEnd rate1 rate0 stop inputs) s = .next ((s.withPins rate1 rate0 stop inputs).endReset h.cause) := by
  simp only [exec, execResetEnd, hold]

/-- With no command waiting, a period of the hold passes. -/
theorem step_holdPeriod (hp : s.pending = []) (hold : s.hold = some h) : step s = .next (s.holdPeriod h) := by
  simp only [step, hp, State.basePeriod, hold]

theorem State.holdPeriod_counts (he : h.elapsed + 1 < 24000) :
    s.holdPeriod h = { s with hold := some { h with elapsed := h.elapsed + 1 } } :=
  if_neg fun ⟨_, ended⟩ => he.not_ge ended

theorem State.holdPeriod_ends (hc : h.cause = .restart) (he : h.elapsed + 1 = 24000) :
    s.holdPeriod h = s.endReset .restart :=
  if_pos ⟨hc, he.ge⟩

end Hold

/-- Settles O60: the hold under each cause, its end from outside, and the end that a RESTART's hold brings itself. -/
theorem deviceResets : Obligations.DeviceResets := by
  refine ⟨fun s => ⟨congrArg Host.Outcome.next (s.beginReset_eq .power), exec_resetPin_other,
    fun h hold => exec_resetPin_power hold, fun cause => ⟨s.drivenLevel_heldInReset cause, rfl⟩⟩, ?_, ?_⟩
  · intro s h rate1 rate0 stop inputs hold rate
    rw [exec_resetEnd hold, State.endReset_eq]
    simp only [State.afterReset, State.channel_withPins, HaltUnit.afterTest_eq]
    rfl
  · intro s h hp hold hc
    rw [step_holdPeriod hp hold]
    refine ⟨fun he => by rw [State.holdPeriod_counts he], fun he => ?_⟩
    rw [State.holdPeriod_ends hc he, exec_resetEnd hold, State.withPins_self, hc]

end Sys2Proof.Machine
end

section
/-! PROOF. The layouts of messages (sections 11.1 to 11.5): the kind codes and the code tables, the bytes of the HELLO
frame, the body that PLACE reads, and the bytes of every answer and report. -/

namespace Sys2Proof.Machine

/-! ### Kind codes (Table 11-3) -/

/-- The code of a request names that request (R181). -/
theorem RequestKind.ofByte_code (k : RequestKind) : RequestKind.ofByte k.code = some k := by cases k <;> rfl

theorem commandOfFrame_code (k : RequestKind) (seq : Byte) (body : List Byte) :
    commandOfFrame k.code seq body = k.command seq body := by
  rw [commandOfFrame, RequestKind.ofByte_code]

/-- A code that Table 11-3 does not give names no request (R168). -/
theorem commandOfFrame_unnamed {kind : Byte} (h : kind ∉ RequestKind.all.map RequestKind.code) (seq : Byte)
    (body : List Byte) : commandOfFrame kind seq body = .unknown kind seq body := by
  have unnamed : RequestKind.ofByte kind = none :=
    List.find?_eq_none.mpr fun k hk hc => h (List.mem_map.mpr ⟨k, hk, beq_iff_eq.mp hc⟩)
  rw [commandOfFrame, unnamed]

/-! ### The HELLO frame (section 11.1) -/

/-- The CRC register after each byte of the HELLO request with number 0 (R179). -/
theorem crc_hello :
    crc [0x02] = 0xC1B2 ∧ crc [0x02, 0x00] = 0x7B6D ∧ crc [0x02, 0x00, 0x01] = 0xB2DD ∧
      crc [0x02, 0x00, 0x01, 0x00] = 0x5A99 := ⟨by decide, by decide, by decide, by decide⟩

theorem frameBytes_hello : frameBytes 0x01 0x00 [] = [0xC3, 0x02, 0x00, 0x01, 0x00, 0x99, 0x5A] := by
  obtain ⟨-, -, -, whole⟩ := crc_hello
  have checked : crc (checkedBytes 0x01 0x00 []) = 0x5A99 := whole
  rw [frameBytes, checked]
  rfl

/-- Settles O11: the codes request by request, every other byte, the code tables, and the HELLO frame. -/
theorem kindCodesAndHelloFrame : Obligations.KindCodesAndHelloFrame := by
  refine ⟨fun seq body => ?_, fun kind seq body h => commandOfFrame_unnamed h seq body, ?_, ?_⟩
  · have named : ∀ k : RequestKind, commandOfFrame k.code seq body = k.command seq body ∧ k.code = k.code :=
      fun k => ⟨commandOfFrame_code k seq body, rfl⟩
    exact ⟨named .hello, named .status, named .restart, named .ack, named .reportsOn, named .linkSetup, named .linkReset,
      named .timeSetup, named .timeSet, named .timeRun, named .timeStop, named .timeRead, named .place,
      named .entryQuery, named .entryList, named .cancel, named .timelineClear, named .lineSetup, named .lineWrite,
      named .linesRead, named .halt, named .resume, named .stopSetup, named .channelSetup, named .channelQuery,
      named .flush⟩
  · exact ⟨rfl, fun _ => rfl, fun _ _ _ _ _ _ => rfl, rfl, rfl, rfl, rfl, fun _ => rfl, rfl, rfl, rfl, rfl, rfl, rfl, rfl,
      fun _ => rfl, fun _ => rfl, fun _ => rfl⟩
  · obtain ⟨length, lengthHigh, kind, seq⟩ := crc_hello
    exact ⟨length, lengthHigh, kind, seq, frameBytes_hello⟩

/-! ### The body of PLACE (Table 11-4) -/

/-- Settles O14: the reader takes the bodies of its fields, and the fields name the plans in range. -/
theorem placeBodyExact : Obligations.PlaceBodyExact := fun p body => readPlace_iff body p

/-! ### Parts of a layout (R179, R182) -/

theorem optBytes_eq_getD {α : Type} (f : α → List Byte) (o : Option α) : optBytes f o = (o.map f).getD [] := by
  cases o <;> rfl

/-! ### ENTRY-QUERY's optional fields (Table 11-5)

The fields come in groups of which the action, the start form or the progress decides: each group's bits in the presence
indicator, with the bytes of its fields that are present. -/

/-- The width of a pulse. -/
def Action.group (a : Action) : Nat × List Byte := (memberBit a.width.isSome 0, optBytes tickBytes a.width)

/-- The fields of a start form. -/
def Start.group (st : Start) : Nat × List Byte :=
  (memberBit st.time.isSome 1 + memberBit st.delay.isSome 2 + memberBit st.triggerBytes.isSome 3 +
      memberBit st.arms.isSome 4 + memberBit st.late.isSome 5,
    optBytes tickBytes st.time ++ optBytes tickBytes st.delay ++ optBytes id st.triggerBytes ++
      optBytes bytes16 st.arms ++ optBytes (fun l => bytes8 (LatePolicy.code l)) st.late)

/-- The period and the count of a repeating plan. -/
def Plan.repeatGroup (p : Plan) : Nat × List Byte :=
  (memberBit p.rep.isSome 6 + memberBit p.rep.isSome 7,
    optBytes (fun r => tickBytes r.period) p.rep ++ optBytes (fun r => bytes16 r.count) p.rep)

/-- The due time, the lead and the remaining occurrences. -/
def Progress.group (g : Progress) : Nat × List Byte :=
  (memberBit g.due.isSome 8 + memberBit g.lead.isSome 9 + memberBit g.remaining.isSome 10,
    optBytes tickBytes g.due ++ optBytes tickBytes g.lead ++ optBytes quantityBytes g.remaining)

/-- The arms left. -/
def Entry.armsGroup (e : Entry) : Nat × List Byte := (memberBit e.armsLeft.isSome 11, optBytes quantityBytes e.armsLeft)

/-- The slot's fixed bytes, and those that stand at the end of the answer. -/
def EntrySlot.group (sl : EntrySlot) : List Byte × List Byte :=
  match sl.notice with
  | some n =>
    (bytes8 sl.code ++ (bytes8 n.eventsCode ++ bytes16 n.firedCount ++ bytes16 n.missedCount ++ bytes16 n.overrunCount ++
        bytes8 (1 + memberBit n.outcome.isSome 1 + memberBit n.remaining.isSome 2)),
      tickBytes n.lastTick ++ optBytes (fun o => bytes8 (FinalOutcome.code o)) n.outcome ++
        optBytes quantityBytes n.remaining)
  | none => (bytes8 sl.code ++ (bytes8 0 ++ bytes16 0 ++ bytes16 0 ++ bytes16 0 ++ bytes8 0), [])

/-- ENTRY-QUERY's fields, the optional ones group by group. -/
theorem entryQueryBytes_groups (i : EntryIx) (e : Entry) :
    entryQueryBytes i e =
      bytes8 i.val ++ bytes8 e.progress.state.code ++ bytes16 e.plan.tag.toNat ++ bytes8 e.plan.line.val ++
        bytes8 e.plan.action.code ++ bytes8 e.plan.start.code ++ bytes8 e.plan.notifyCode ++
        flagBytes e.progress.cancelFlag ++
        bytes16 (e.plan.action.group.1 + e.plan.start.group.1 + e.plan.repeatGroup.1 + e.progress.group.1 +
          e.armsGroup.1) ++
        e.slot.group.1 ++ e.plan.action.group.2 ++ e.plan.start.group.2 ++ e.plan.repeatGroup.2 ++ e.progress.group.2 ++
        e.armsGroup.2 ++ e.slot.group.2 := by
  obtain ⟨p, g, arms, slot⟩ := e
  unfold entryQueryBytes
  cases slot <;>
    simp only [Action.group, Start.group, Plan.repeatGroup, Progress.group, Entry.armsGroup, EntrySlot.group,
      EntrySlot.notice, List.append_assoc, Nat.add_assoc]

/-! ### Answers (R183) -/

/-- Settles O15: each answer's fields in their order; a field that may be absent, in both cases; ENTRY-QUERY by groups. -/
theorem answerBytes : Obligations.AnswerBytes := by
  unfold Obligations.AnswerBytes
  intro le16 le32 tick one flag quantity setup
  have quantity_eq : quantityBytes = quantity := by
    funext q
    cases q <;> rfl
  refine ⟨fun _ => rfl, rfl, ?hello, fun _ => rfl, fun _ => rfl, fun _ _ => rfl, fun _ _ _ => rfl, fun _ _ _ => rfl,
    fun _ => rfl, fun _ _ _ _ => rfl, fun i st late missed => ⟨rfl, fun due remaining => ?place⟩, ?entryQuery, ?entryList,
    fun _ _ => rfl, fun _ _ _ => rfl, fun _ => rfl, fun _ => rfl, fun _ _ => rfl, fun _ _ _ => rfl,
    fun _ _ _ _ _ => rfl, fun _ _ _ => rfl, ?channelQuery, fun _ _ => rfl⟩
  case hello => rintro (_ | _ | _ | _) <;> rfl
  case place =>
    rw [← quantity_eq]
    rfl
  case entryQuery =>
    intro i e
    extract_lets p width start rep progress armsLeft cancelFlag slot
    have width_eq : p.action.group = width := by cases hp : p.action <;> simp only [width, hp] <;> rfl
    have start_eq : p.start.group = start := by cases hp : p.start <;> simp only [start, hp] <;> rfl
    have rep_eq : p.repeatGroup = rep := by cases hp : p.rep <;> simp only [rep, Plan.repeatGroup, hp] <;> rfl
    have progress_eq : e.progress.group = progress := by
      cases hp : e.progress <;> simp only [progress, hp, ← quantity_eq] <;> rfl
    have arms_eq : e.armsGroup = armsLeft := by
      cases hp : e.armsLeft <;> simp only [armsLeft, Entry.armsGroup, hp, ← quantity_eq] <;> rfl
    have cancel_eq : flagBytes e.progress.cancelFlag = cancelFlag := by
      cases hp : e.progress <;> simp only [cancelFlag, hp] <;> rfl
    have slot_eq : e.slot.group = slot := by
      cases hs : e.slot <;> simp only [slot, hs, ← quantity_eq, ← optBytes_eq_getD] <;> rfl
    rw [← width_eq, ← start_eq, ← rep_eq, ← progress_eq, ← arms_eq, ← cancel_eq, ← slot_eq]
    exact entryQueryBytes_groups i e
  case entryList =>
    intro listed next
    refine (List.append_assoc _ _ _).trans
      (congrArg₂ (· ++ ·) (congrArg (one listed.length ++ ·) (List.flatMap_congr ?_)) ?_)
    · rintro ⟨index, st, tag, line, _ | due⟩ - <;> rfl
    · cases next <;> rfl
  case channelQuery =>
    rintro ⟨_, _, _, _ | stamp, _, _, _ | level, _, _, _, _⟩ <;>
      simp only [AnswerFields.bytes, ChannelView.bytes, optBytes, List.append_assoc, List.cons_append, List.nil_append] <;>
      rfl

/-! ### Reports (R184) -/

/-- Settles O16: each report's body in its order; a field that may be absent, in both cases. -/
theorem reportBytes : Obligations.ReportBytes := by
  unfold Obligations.ReportBytes
  intro le16 le32 tick one flag holds
  refine ⟨fun _ _ => rfl, ?start, fun c lost records => ⟨rfl, ?batch⟩, fun i tag n => ⟨rfl, ?entry⟩,
    fun _ _ _ => ⟨rfl, rfl⟩, fun _ _ _ _ => ⟨rfl, rfl⟩, rfl⟩
  case start => rintro cause (_ | _ | _ | _) <;> exact ⟨rfl, rfl⟩
  case batch =>
    refine congrArg (_ ++ ·) (List.flatMap_congr ?_)
    rintro ⟨_ | _, stamp, _ | interval, afterLoss⟩ - <;> rfl
  case entry =>
    obtain ⟨_, _, _, _, _, _, _, _, _ | _, _ | _ | _⟩ := n <;> rfl

end Sys2Proof.Machine
end

section
/-! PROOF. One step (log entries 2 and 3): the command at the front of the queue, or one period of the base clock; and
every command answers a next state with the waiting commands as they were. -/

namespace Sys2Proof.Machine

/-! ### The front of the queue -/

/-- A command at the front runs with the queue's rest. -/
theorem step_front {s : State} {c : Instr} {rest : List Instr} (hp : s.pending = c :: rest) :
    step s = exec c (s.setPending rest) := by
  simp only [step, hp]

/-- With no command waiting, a period of the base clock passes. -/
theorem step_idle {s : State} (hp : s.pending = []) : step s = .next s.basePeriod := by
  simp only [step, hp]

/-- With no device reset holding, the blocks have their shares of the period one after another. -/
theorem State.basePeriod_shares {s : State} (hold : s.hold = none) :
    s.basePeriod =
      s.prescalePeriod.cntPeriod.stopPeriod.inputsPeriod.rxPeriod.msPeriod.txPeriod.serveRequest.admitOne := by
  simp only [State.basePeriod, hold]

/-- Settles O1: a command in front; none, and then the shares of the period. -/
theorem stepRunsFrontCommand : Obligations.StepRunsFrontCommand :=
  ⟨fun _ _ _ hp => step_front hp, fun _ hp => ⟨step_idle hp, State.basePeriod_shares⟩⟩

/-! ### What leaves the waiting commands alone -/

section Operations

variable (s : State)

@[simp] theorem State.addCause_pending (c : Causes) : (s.addCause c).pending = s.pending := by
  obtain ⟨-, -, -, -, -, pending⟩ := s.addCause_frame c
  exact pending

@[simp] theorem State.advance_pending : s.advance.pending = s.pending := (sameOutside_advance s).pending

@[simp] theorem State.acceptEdge_pending (c : ChanIx) (stamp : Tick) : (s.acceptEdge c stamp).pending = s.pending :=
  (besideChannel_acceptEdge s c stamp).pending

@[simp] theorem State.rawTransition_pending (c : ChanIx) : (s.rawTransition c).pending = s.pending :=
  (besideChannel_rawTransition s c).pending

@[simp] theorem State.lingerExpires_pending (c : ChanIx) : (s.lingerExpires c).pending = s.pending := rfl

@[simp] theorem State.returnBatches_pending (reports : List Report) :
    (s.returnBatches reports).pending = s.pending := by
  unfold State.returnBatches
  rfl

@[simp] theorem State.writeDirect_pending (mask values : Levels) : (s.writeDirect mask values).pending = s.pending := by
  unfold State.writeDirect
  rfl

@[simp] theorem State.restartReferences_pending : s.restartReferences.pending = s.pending := rfl

@[simp] theorem State.openStopWindow_pending : s.openStopWindow.pending = s.pending := rfl

@[simp] theorem State.stopReturns_pending : s.stopReturns.pending = s.pending := rfl

@[simp] theorem State.gapAbort_pending : s.gapAbort.pending = s.pending := rfl

@[simp] theorem State.acceptStop_pending : s.acceptStop.pending = s.pending := by
  unfold State.acceptStop
  dsimp only
  split
  · split <;> simp
  · rfl

@[simp] theorem State.internalTick_pending : s.internalTick.pending = s.pending := by
  unfold State.internalTick
  split <;> simp

@[simp] theorem State.cntRise_pending : s.cntRise.pending = s.pending := by
  unfold State.cntRise
  split <;> simp

@[simp] theorem State.receive_pending (value : Byte) (stopBit : Bool) :
    (s.receive value stopBit).pending = s.pending := by
  obtain ⟨l, received⟩ := s.receive_onlyLink value stopBit
  rw [received, State.setLink_pending]

@[simp] theorem State.offerFrame_pending (f : Frame) : (s.offerFrame f).pending = s.pending := by
  unfold State.offerFrame
  split <;> rfl

@[simp] theorem State.transmitChoice_pending : s.transmitChoice.pending = s.pending := by
  obtain ⟨-, -, -, -, -, -, -, pending⟩ := s.transmitChoice_frame
  exact pending

@[simp] theorem State.reportTimerExpires_pending : s.reportTimerExpires.pending = s.pending := by
  unfold State.reportTimerExpires
  dsimp only
  split
  · rfl
  · split <;> simp

@[simp] theorem State.admitItem_pending (item : Ready) : (s.admitItem item).pending = s.pending := by
  obtain ⟨-, -, -, -, -, pending, -⟩ := s.admitItem_frame item
  exact pending

@[simp] theorem State.admitOne_pending : s.admitOne.pending = s.pending := by
  unfold State.admitOne
  split
  · split <;> simp
  · rfl

/-! ### The device reset (R176 to R178): the queue of commands is not the part's -/

@[simp] theorem State.beginReset_pending (cause : ResetCause) : (s.beginReset cause).pending = s.pending := rfl

@[simp] theorem State.withPins_pending (rate1 rate0 stop : Bool) (inputs : Levels) :
    (s.withPins rate1 rate0 stop inputs).pending = s.pending := rfl

@[simp] theorem State.endReset_pending (cause : ResetCause) : (s.endReset cause).pending = s.pending := by
  rw [State.endReset_eq]
  rfl

@[simp] theorem State.frameEnds_pending : s.frameEnds.pending = s.pending := by
  unfold State.frameEnds
  split
  · simp
  · split
    · simp
    · split <;> simp

end Operations

/-! ### Requests -/

/-- A handler leaves the waiting commands alone. -/
def Handler.LeavesPending (f : Handler) : Prop := ∀ (body : List Byte) (s : State), (f body s).2.pending = s.pending

theorem Handler.leavesPending_of_reads {f : Handler} (hf : ∀ body s, (f body s).2 = s) : f.LeavesPending :=
  fun body s => congrArg State.pending (hf body s)

theorem leavesPending_linkResetRequest : Handler.LeavesPending linkResetRequest := by
  intro body s
  unfold linkResetRequest
  split
  · rfl
  · simp only [accept, State.setLink_pending, State.setReports_pending, State.returnBatches_pending]

theorem leavesPending_placeRequest : Handler.LeavesPending placeRequest := by
  intro body s
  unfold placeRequest
  split
  · rfl
  · split
    · rfl
    · split
      · rfl
      · split
        · rfl
        · split
          · rfl
          · exact (sameOutside_placeAt s _ _).pending

theorem leavesPending_cancelRequest : Handler.LeavesPending cancelRequest := by
  intro body s
  unfold cancelRequest
  split
  · rfl
  · dsimp only
    split
    · rfl
    · exact (sameOutside_foldl (fun u i => sameOutside_cancelEntry (s := u) (i := i)) _ s).pending

theorem leavesPending_timelineClearRequest : Handler.LeavesPending timelineClearRequest := by
  intro body s
  cases body with
  | nil => rw [timelineClearRequest_clears]; rfl
  | cons b rest => rw [timelineClearRequest_error (List.cons_ne_nil b rest)]; rfl

theorem leavesPending_haltRequest : Handler.LeavesPending haltRequest := by
  intro body s
  unfold haltRequest
  split
  · rfl
  · exact s.addCause_pending _

theorem leavesPending_stopSetupRequest : Handler.LeavesPending stopSetupRequest := by
  intro body s
  unfold stopSetupRequest
  split
  · rfl
  · dsimp only [accept]
    split
    · exact State.addCause_pending _ _
    · rfl

theorem leavesPending_flushRequest : Handler.LeavesPending flushRequest := by
  intro body s
  unfold flushRequest
  split
  · rfl
  · next named _ =>
    change (s.flushAll named).pending = s.pending
    rw [State.flushAll_onlyChannels]

/-- Five requests only read; those of the last group write whole blocks, and nothing else, in each of their cases. -/
theorem leavesPending_handlerFor (k : RequestKind) : (handlerFor k).LeavesPending := by
  cases k with
  | hello => exact Handler.leavesPending_of_reads helloRequest_reads
  | timeRead => exact Handler.leavesPending_of_reads timeReadRequest_reads
  | entryQuery => exact Handler.leavesPending_of_reads entryQueryRequest_reads
  | entryList => exact Handler.leavesPending_of_reads entryListRequest_reads
  | linesRead => exact Handler.leavesPending_of_reads linesReadRequest_reads
  | linkReset => exact leavesPending_linkResetRequest
  | place => exact leavesPending_placeRequest
  | cancel => exact leavesPending_cancelRequest
  | timelineClear => exact leavesPending_timelineClearRequest
  | halt => exact leavesPending_haltRequest
  | stopSetup => exact leavesPending_stopSetupRequest
  | flush => exact leavesPending_flushRequest
  | status | restart | ack | reportsOn | linkSetup | timeSetup | timeSet | timeRun | timeStop | lineSetup
    | lineWrite | resume | channelSetup | channelQuery =>
    intro body s
    simp only [handlerFor, statusRequest, restartRequest, ackRequest, reportsOnRequest, linkSetupRequest,
      timeSetupRequest, timeSetRequest, timeRunRequest, timeStopRequest, lineSetupRequest,
      lineWriteRequest, resumeRequest, channelSetupRequest, channelQueryRequest, accept, refuse]
    repeat' split
    all_goals simp

theorem leavesPending_handlerOf (kind : Byte) : (handlerOf kind).LeavesPending := by
  unfold handlerOf
  split
  · exact leavesPending_handlerFor _
  · exact fun _ _ => rfl

section Requests

variable {f : Handler} (hf : f.LeavesPending) (g : Frame) (s : State)
include hf

theorem State.takeHead_pending : (s.takeHead f g).pending = s.pending := by
  refine (State.transmitChoice_pending _).trans ?_
  change (s.dequeued.executeFrame f g).pending = s.dequeued.pending
  unfold State.executeFrame
  split
  · rfl
  · exact hf g.body s.dequeued

theorem requestStep_pending : (requestStep f g s).pending = s.pending := by
  have served : ∀ u : State, (if u.headIs g then u.takeHead f g else u).pending = u.pending := by
    intro u
    split
    · exact State.takeHead_pending hf g u
    · rfl
  unfold requestStep
  split
  · rfl
  · split
    · rfl
    · refine (served _).trans ?_
      split
      · rfl
      · exact s.offerFrame_pending g

end Requests

/-! ### Every command -/

/-- A command that hands a frame to the handler of its kind. -/
theorem exec_completes_of_frame {c : Instr} {s : State} {h : Handler} {f : Frame}
    (hc : exec c s = .next (requestStep h f s)) (hk : h = handlerOf f.kind) :
    ∃ t, exec c s = .next t ∧ t.pending = s.pending :=
  ⟨_, hc, requestStep_pending (hk ▸ leavesPending_handlerOf f.kind) f s⟩

/-- Settles O2: a request is the execution of its frame, and an event's operation, where its moment has come, leaves the
waiting commands alone. -/
theorem everyCommandCompletes : Obligations.EveryCommandCompletes := by
  intro c s
  cases c with
  | hello | status | restart | unknown | answerCacheResend | ack | reportsOn | linkSetup | linkReset | timeSetup
    | timeSet | timeRun | timeStop | timeRead | place | entryQuery | entryList | cancel | timelineClear | lineSetup
    | lineWrite | linesRead | halt | resume | stopSetup | channelSetup | channelQuery | flush =>
    exact exec_completes_of_frame rfl rfl
  | internalTick => exact ⟨_, rfl, s.internalTick_pending⟩
  | admission => exact ⟨_, rfl, s.admitOne_pending⟩
  | txFrameEnd => exact ⟨_, rfl, s.frameEnds_pending⟩
  | powerOn => exact ⟨_, rfl, s.beginReset_pending _⟩
  | cntRisingEdge | rawTransition | glitch | edgeAccepted | stopWindowOpen | stopGlitch | stopLevelAccepted
    | lingerExpiry | reportTimerExpiry | rxCharacter | gapAbort | resetPin | resetEnd =>
    refine ⟨_, rfl, ?_⟩
    repeat' split
    all_goals simp

end Sys2Proof.Machine
end
